-- ==== Sys2Proof/Word.lean ====
section
/-! DEFINITION. The widths of LZ78E (R7, R10): a symbol or byte is 8 bits, a reference index 16 bits,
a position, count or host register 32 bits. All values are unsigned. -/

namespace Sys2Proof

/-- One symbol, one byte of IN or OUT (R7, R10). -/
abbrev Byte := BitVec 8

/-- A dictionary index or reference_index (R7). -/
abbrev Index := BitVec 16

/-- A position, a count or a host register (R9, R10). -/
abbrev Word := BitVec 32

end Sys2Proof
end

