-- ==== Sys2Proof/Syntax.lean ====
section
/-! DEFINITION. The instructions of LZ78E: one constructor per row of spec/opcode_table.json (R101). -/

namespace Sys2Proof

/-- The five encoded operations (R101). The first three are command words written to CTRL (R99), the last two are
wire records (R90, R93). -/
inductive Instr where
  /-- CTRLW 0x0000_0000 (R211). -/
  | nop
  /-- CTRLW 0x0000_0001 (R212). -/
  | encode
  /-- CTRLW 0x0000_0002 (R213). -/
  | decode
  /-- REC24 with W[23:8] = 0: a record whose entry is the single symbol `sym` (R93, R161). -/
  | lit (sym : Byte)
  /-- REC24 with W[23:8] ≠ 0: extend dictionary entry `ref` by `sym` (R93, R162). -/
  | ext (ref : Index) (sym : Byte)
  deriving DecidableEq, Repr

end Sys2Proof
end

