-- ==== Sys2Proof/WellFormed.lean ====
section
/-! DEFINITION. Which terms of `Instr` stand for an encoded instruction. -/

namespace Sys2Proof

/-- The one constraint of the opcode table: an EXT record's reference_index is not 0, since W[23:8] = 0 is LIT (R93). -/
def Instr.wellFormed : Instr → Bool
  | .nop => true
  | .encode => true
  | .decode => true
  | .lit _ => true
  | .ext ref _ => ref != 0

end Sys2Proof
end

