-- ==== Sys2Proof/Decode.lean ====
section
/-! DEFINITION. Decoding and encoding of the two encoded forms of LZ78E: the command word (R99) and the 3-byte record
(R90 to R93). A command word reaches the machine only as a host write of CTRL, a record only as 3 consecutive IN bytes of a
DECODE (R101), so the two decoders never compete. -/

namespace Sys2Proof

/-- Why bits are no instruction. -/
inductive DecodeError where
  /-- A CTRL word other than the three legal ones: CMD = 11, or a bit of 31:2 set (R100, R214). -/
  | reservedCommand (w : Word)
  /-- Fewer than the 3 bytes of a record are left (R96, R97). -/
  | truncatedRecord
  deriving DecidableEq, Repr

/-- The command word decoder (R99, R101): the three legal words, every other word reserved (R100). -/
def decodeCtrl (w : Word) : Except DecodeError Instr :=
  if w = 0x00000000#32 then .ok .nop
  else if w = 0x00000001#32 then .ok .encode
  else if w = 0x00000002#32 then .ok .decode
  else .error (.reservedCommand w)

/-- REF of a record from its first two bytes, big-endian: `(zext_16(byte0) << 8) | zext_16(byte1)` (R67, R92). -/
def assembleRef (b0 b1 : Byte) : Index := (b0.zeroExtend 16 <<< 8) ||| b1.zeroExtend 16

/-- The record decoder: every 3-byte group is a record (R94), LIT or EXT by REF alone (R93). -/
def decodeRecord (b0 b1 b2 : Byte) : Instr :=
  if assembleRef b0 b1 = 0 then .lit b2 else .ext (assembleRef b0 b1) b2

/-- The record decoder on a byte stream: one record and the rest of the stream (R95, R97). -/
def decodeStream : List Byte → Except DecodeError (Instr × List Byte)
  | b0 :: b1 :: b2 :: rest => .ok (decodeRecord b0 b1 b2, rest)
  | _ => .error .truncatedRecord

/-- The encoded form of an instruction: a word for CTRL, or the 3 wire bytes of a record in wire order. -/
inductive Encoded where
  /-- A command word, the 32-bit value of a host write to CTRL (R99). -/
  | command (w : Word)
  /-- The bytes of a record in the order of the wire (R90). -/
  | wire (b0 b1 b2 : Byte)
  deriving DecidableEq, Repr

/-- byte0 of a record: REF[15:8] (R92). -/
def refHigh (ref : Index) : Byte := ref.extractLsb' 8 8

/-- byte1 of a record: REF[7:0] (R92). -/
def refLow (ref : Index) : Byte := ref.extractLsb' 0 8

/-- The encoder, written from the encoding tables of R90, R92 and R99. -/
def encodeInstr : Instr → Encoded
  | .nop => .command 0x00000000#32
  | .encode => .command 0x00000001#32
  | .decode => .command 0x00000002#32
  | .lit sym => .wire 0 0 sym
  | .ext ref sym => .wire (refHigh ref) (refLow ref) sym

/-- The decoder of an encoded form, whichever it is. -/
def decodeEncoded : Encoded → Except DecodeError Instr
  | .command w => decodeCtrl w
  | .wire b0 b1 b2 => .ok (decodeRecord b0 b1 b2)

/-- byte0 of the 24-bit record word W = (byte0, byte1, byte2), byte0 in bits 23:16 (R91). -/
def recordByte0 (w : Nat) : Byte := BitVec.ofNat 8 (w / 65536)

/-- byte1 of the 24-bit record word W (R91). -/
def recordByte1 (w : Nat) : Byte := BitVec.ofNat 8 (w / 256)

/-- byte2 of the 24-bit record word W (R91). -/
def recordByte2 (w : Nat) : Byte := BitVec.ofNat 8 w

/-- The instruction read from a row's bits, numbered as the opcode table numbers them: CTRLW rows are one 32-bit word, REC24
rows are the one 24-bit word W of R91, whose byte0 is bits 23:16 (DEDUCED, log 17). -/
def decodeTableWord (nbits w : Nat) : Option Instr :=
  if nbits = 32 then (decodeCtrl (BitVec.ofNat 32 w)).toOption
  else if nbits = 24 then some (decodeRecord (recordByte0 w) (recordByte1 w) (recordByte2 w))
  else none

/-- The bits of an instruction as the opcode table numbers them: how many, and their value (R91, R99, R101). -/
def encodeTableWord (i : Instr) : Nat × Nat :=
  match encodeInstr i with
  | .command w => (32, w.toNat)
  | .wire b0 b1 b2 => (24, b0.toNat * 65536 + b1.toNat * 256 + b2.toNat)

end Sys2Proof
end

