-- ==== Sys2Proof/Config.lean ====
section
/-! DEFINITION. What is fixed for the life of an instance (the parameters of R8 and R9) and the free values of the spec
(the draws of R77, R80, R83, R219): opaque constants without a body, so that no proof can see their values. -/

namespace Sys2Proof

/-- The parameters of an instance (R8, R9). The spec gives IN_MAX, OUT_MAX and the bases no value, a model takes them as
arguments (R9); DICT_CAP is 65535 for this hardware, a smaller value is test-only (R8). -/
structure Params where
  /-- DICT_CAP, the largest dictionary index (R8). -/
  dictCap : Nat
  /-- IN_MAX, the capacity of IN in bytes (R9). -/
  inMax : Nat
  /-- OUT_MAX, the capacity of OUT in bytes (R9). -/
  outMax : Nat
  /-- REG_BASE (R66). -/
  regBase : Nat
  /-- IN_BASE (R66). -/
  inBase : Nat
  /-- OUT_BASE (R66). -/
  outBase : Nat
  deriving DecidableEq, Repr

/-- Two address ranges share no address. -/
abbrev rangesDisjoint (a n b m : Nat) : Prop := a + n ≤ b ∨ b + m ≤ a

/-- The bounds of R8 and R9, and the three windows not overlapping (R66). -/
abbrev Params.valid (c : Params) : Prop :=
  1 ≤ c.dictCap ∧ c.dictCap ≤ 65535 ∧
  1 ≤ c.inMax ∧ c.inMax ≤ 2 ^ 32 - 1 ∧
  3 * c.inMax ≤ c.outMax ∧ c.outMax ≤ 2 ^ 32 - 1 ∧
  rangesDisjoint c.regBase 32 c.inBase c.inMax ∧
  rangesDisjoint c.regBase 32 c.outBase c.outMax ∧
  rangesDisjoint c.inBase c.inMax c.outBase c.outMax

/-- The instance of `State.reset`: IN_MAX and OUT_MAX are the common premise of 95_test_vectors.md, DICT_CAP is R8's, the
bases are arbitrary. DESIGN CHOICE (log 1): no statement rests on these values; unsafe for a claim about `State.reset` alone. -/
def Config.defaultParams : Params where
  dictCap := 65535
  inMax := 16
  outMax := 48
  regBase := 0x0000
  inBase := 0x1000
  outBase := 0x2000

/-- The error of a command, the value of STATUS.ERR (R35, R231). The reserved codes 101, 110 and 111 are never produced
(R100), so they have no name here. -/
inductive ErrCode where
  /-- 000, no error. -/
  | none
  /-- 001, CAPACITY_EXCEEDED (R232). -/
  | capacityExceeded
  /-- 010, CORRUPT_TRUNCATED (R233). -/
  | corruptTruncated
  /-- 011, CORRUPT_BAD_REFERENCE (R234). -/
  | corruptBadReference
  /-- 100, OUTPUT_OVERFLOW (R235). -/
  | outputOverflow
  deriving DecidableEq, Repr, Inhabited

/-- Free value (log 4): what a host read of the register at this offset draws at this epoch (R77, R80, R277). -/
opaque Config.drawReg (epoch offset : Nat) : Word

/-- Free value (log 4): what a host read of an unwritten IN byte draws at this epoch (R219). -/
opaque Config.drawIn (epoch offset : Nat) : Byte

/-- Free value (log 4): what a host read of an unspecified OUT byte draws at this epoch (R77, R80, R83, R277). -/
opaque Config.drawOut (epoch offset : Nat) : Byte

/-- Free value (log 6): STATUS.ERR at the end of a command during which the host wrote IN (R80). -/
opaque Config.drawErr (epoch : Nat) : ErrCode

end Sys2Proof
end

