-- ==== Sys2Proof/Machine/State.lean ====
section
/-! DEFINITION. The state of one LZ78E instance as plain data (R20 to R47), the host's side of the bus, and the reasons a
step can stop. -/

namespace Sys2Proof.Machine

/-- PHASE, the engine's sequencing state (R22). -/
inductive Phase where
  /-- No command is running. -/
  | idle
  /-- ENCODE, at the start of a record (R130). -/
  | eBegin
  /-- ENCODE, examining a source symbol (R131). -/
  | eSym
  /-- DECODE, before the stream length check (R166). -/
  | dBegin
  /-- DECODE, before a record (R167). -/
  | dRec
  deriving DecidableEq, Repr

/-- The eight host-visible registers (R30). -/
inductive HostReg where
  | ctrl | status | inLen | outLen | recCount | dictCount | errPos | errInfo
  deriving DecidableEq, Repr

/-- An access width that no LZ78E window admits (R69; log 24). -/
inductive OtherWidth where
  | w16 | w64 | w128
  deriving DecidableEq, Repr

/-- A host bus access by host address: the four kinds of R103, and the accesses of other widths that R69 refuses. -/
inductive Access where
  /-- Rd32: a 32-bit read. -/
  | rd32 (addr : Nat)
  /-- Wr32: a 32-bit write. -/
  | wr32 (addr : Nat) (data : Word)
  /-- Rd8: a byte read. -/
  | rd8 (addr : Nat)
  /-- Wr8: a byte write. -/
  | wr8 (addr : Nat) (data : Byte)
  /-- A read of another width. -/
  | rdOther (width : OtherWidth) (addr : Nat)
  /-- A write of another width. -/
  | wrOther (width : OtherWidth) (addr : Nat)
  deriving DecidableEq, Repr

/-- One operation of a host program (R103, R104). -/
inductive HostOp where
  /-- One bus access. -/
  | access (a : Access)
  /-- POLL: RD STATUS, repeated while bit 0 of the value read is 1 (R104). -/
  | poll
  /-- The second half of one COPYOUT pair: Wr8 of the byte just read (R104). -/
  | writeRead (addr : Nat)
  deriving DecidableEq, Repr

/-- Who takes a step (R14, R74, R270). -/
inductive Turn where
  /-- The host makes its next access. -/
  | host
  /-- The engine takes its next step. -/
  | engine
  /-- The reset input is asserted. -/
  | reset
  deriving DecidableEq, Repr

/-- What a host read returns. -/
inductive BusData where
  | word (v : Word)
  | byte (v : Byte)
  deriving DecidableEq, Repr

/-- An entry of the dictionary table: PARENT and SYM (R25). -/
structure DictEntry where
  /-- DICT[j].PARENT. -/
  parent : Index
  /-- DICT[j].SYM. -/
  sym : Byte
  deriving DecidableEq, Repr

/-- A byte buffer, IN or OUT: the bytes that hold a value, by offset, strictly rising (R62, R63). An unlisted offset holds no
value the spec gives (R47, R82, R83). -/
abbrev Memory := List Host.Cell

/-- The dictionary table: the entries that were ever stored, by index, strictly rising (R25, R64). -/
abbrev DictTable := List (Nat × DictEntry)

/-- The state of an instance (R20), its fixed parameters, and the model's own fields (logs 1, 2,
4, 6, 15, 27). The registers have the widths of R23 (log 13). -/
structure State where
  /-- The parameters, fixed for the life of the instance and written by no step (R8, R9, R20; log 1). -/
  cfg : Params
  /-- PHASE (R22). -/
  phase : Phase
  /-- N: source or stream length, latched from IN_LEN at start (R23). -/
  n : Word
  /-- I: the cursor, where the current record's entry starts (R23, R24). -/
  i : Word
  /-- P: the source position under examination (R23, R24). -/
  p : Word
  /-- C: the node, the entry matched so far (R23). -/
  c : Index
  /-- K: the entry count, read as DICT_COUNT (R23, R39). -/
  k : Index
  /-- R: records completed, read as REC_COUNT (R23, R38). -/
  r : Word
  /-- O: bytes written to OUT, read as OUT_LEN (R23, R37). -/
  o : Word
  /-- DICT (R25). -/
  dict : DictTable
  /-- STATUS.BUSY (R33; log 21). -/
  busy : Bool
  /-- STATUS.DONE (R34). -/
  done : Bool
  /-- STATUS.ERR (R35). -/
  err : ErrCode
  /-- IN_LEN (R36). -/
  inLen : Word
  /-- ERR_POS (R40). -/
  errPos : Word
  /-- ERR_INFO (R41). -/
  errInfo : Word
  /-- IN; the offsets it lists are exactly those with WRITTEN = 1 (R46, R62; log 7). -/
  inBuf : Memory
  /-- OUT (R63; log 8). -/
  outBuf : Memory
  /-- The model's own: IN was written between the latest command's start and the STATUS read that shows DONE = 1, so its
  outputs are unspecified (R80, R276; log 6). -/
  tainted : Bool
  /-- The model's own: a command has been started and no STATUS read since has shown DONE = 1 (R43, R76, R276, R277;
  log 27). -/
  doneUnseen : Bool
  /-- The model's own: the counter the free values are applied to (log 4). -/
  epoch : Nat
  /-- The model's own: the rest of the host's program (R14, R103; log 2). -/
  host : List HostOp
  /-- The model's own: who takes each of the coming steps (R74; log 2). -/
  turns : List Turn
  /-- The model's own: what the last host read returned (log 15). -/
  rdata : Option BusData
  deriving DecidableEq, Repr

/-- Why the machine stops with a fault. All are model-only: the hardware's own errors (R230) are next states. -/
inductive Fault where
  /-- UnwrittenInput (R239): E_SYM or D_REC reads an IN byte no host write has written since reset. Raised by
  `engineReadIn`. Safe: the hardware reads whatever the storage holds. -/
  | unwrittenInput (offset : Nat)
  /-- The engine reads an IN offset ≥ IN_MAX, which R60 says does not exist. Raised by `engineReadIn`, only in states no run
  reaches (R23: N ≤ IN_MAX). Safe. -/
  | inOffsetAbsent (offset : Nat)
  /-- The engine writes an OUT offset ≥ OUT_MAX, which R60 says does not exist. Raised by `emit`, only in states no run
  reaches (R132). Safe. -/
  | outOffsetAbsent (offset : Nat)
  /-- The engine writes a DICT index above DICT_CAP, which R60 says does not exist. Raised by `emit`, only in states no run
  reaches (R132). Safe. -/
  | dictIndexAbsent (index : Nat)
  /-- STR of a dictionary entry whose chain leaves the valid entries 1..K, so that the spec gives it no string (R25, R28).
  Raised by `runRecord`, only in states no run reaches, or with a test-only DICT_CAP below 65535 (log 19). Safe. -/
  | entryUndefined (index : Nat)
  deriving DecidableEq, Repr

/-- Why a step has no meaning. -/
inductive Refusal where
  /-- No meaning for the instruction yet. Raised by `exec`'s refused arms, of which there are none. Safe. -/
  | notModelled (mnemonic : String)
  /-- A CTRL word other than the three legal ones (R214). Raised by `writeCtrl`. Safe. -/
  | reservedCommand (w : Word)
  /-- An IN_LEN write of a value above IN_MAX (R216). Raised by `writeReg`. Safe. -/
  | inLenTooLarge (v : Word)
  /-- A host write to a read-only register (R69, R238). Raised by `writeReg`. Safe. -/
  | readOnlyRegister (reg : HostReg)
  /-- A 32-bit access in the REG window at no multiple of 4 (R69, R238). Raised by `hostAccess`. Safe. -/
  | misaligned (addr : Nat)
  /-- An access of a width its window does not admit (R69, R238). Raised by `hostAccess`. Safe. -/
  | wrongWidth (addr : Nat)
  /-- A host write to OUT (R63, R238). Raised by `hostAccess`. Safe. -/
  | outIsReadOnly (addr : Nat)
  /-- An address in none of the three windows: no defined register, an IN offset ≥ IN_MAX or an OUT offset ≥ OUT_MAX (R66,
  R69, R238; log 12). Raised by `hostAccess`. Safe. -/
  | outsideWindows (addr : Nat)
  /-- A COPYOUT write with no byte read before it, which is no host program of R104 (log 15). Raised by `hostStep`. Safe. -/
  | noByteRead
  deriving DecidableEq, Repr

/-- The outcome of a step or a meaning. -/
abbrev Result := Host.Outcome State Fault Refusal

/-- The state of an instance with parameters `cfg` right after reset (R47, R270, R271). -/
def State.resetWith (cfg : Params) : State where
  cfg := cfg
  phase := .idle
  n := 0
  i := 0
  p := 0
  c := 0
  k := 0
  r := 0
  o := 0
  dict := []
  busy := false
  done := false
  err := .none
  inLen := 0
  errPos := 0
  errInfo := 0
  inBuf := []
  outBuf := []
  tainted := false
  doneUnseen := false
  epoch := 0
  host := []
  turns := []
  rdata := none

/-- The machine right after reset (R47), for the instance of `Config.defaultParams` (log 1). -/
def State.reset : State := State.resetWith Config.defaultParams

end Sys2Proof.Machine
end

