-- ==== Sys2Proof/Machine/Flags.lean ====
section
/-! DEFINITION. The flags of LZ78E: STATUS.BUSY, STATUS.DONE and STATUS.ERR, and nothing else (R44). Each writer of a flag
that R33, R34 and R35 name is one update here; reset is `State.resetWith`. -/

namespace Sys2Proof.Machine

/-- The code of an error in STATUS.ERR (R35, R231). -/
def errBits : ErrCode → BitVec 3
  | .none => 0b000#3
  | .capacityExceeded => 0b001#3
  | .corruptTruncated => 0b010#3
  | .corruptBadReference => 0b011#3
  | .outputOverflow => 0b100#3

/-- The STATUS word of given flags: bit 0 BUSY, bit 1 DONE, bits 4:2 ERR, bits 31:5 read 0 (R32). -/
def statusOf (busy done : Bool) (err : ErrCode) : Word :=
  0#27 ++ errBits err ++ BitVec.ofBool done ++ BitVec.ofBool busy

/-- STATUS as the host reads it (R32). -/
def State.statusWord (s : State) : Word := statusOf s.busy s.done s.err

/-- What STATUS.ERR holds at the end of a command that ends with error `e`: `e`, or a free value when the host wrote IN while
the command was busy (R80; log 6). -/
def State.errAtEnd (s : State) (e : ErrCode) : ErrCode :=
  if s.tainted then Config.drawErr s.epoch else e

/-- The flags a command start writes (R33, R34, R35, R217). -/
def State.flagsAtStart (s : State) : State := { s with busy := true, done := false, err := .none }

/-- The flags a command's end writes: BUSY 0, DONE 1, and ERR the error's code, 000 on completion (R33, R34, R35). -/
def State.flagsAtEnd (e : ErrCode) (s : State) : State :=
  { s with busy := false, done := true, err := s.errAtEnd e }

end Sys2Proof.Machine
end

