-- ==== Sys2Proof/Machine/Ops.lean ====
section
/-! DEFINITION. The named operations over the memories and the registers: sparse stores, START (R217), completion (R133,
R168), the one fault entry (R236), the register updates of the engine steps, the host's stores, and the reset event (R270).
No return from a fault exists (R241). -/

namespace Sys2Proof.Machine

/-- The value a store lists at a key, none where it lists nothing. -/
def Store.read {α : Type} : List (Nat × α) → Nat → Option α
  | [], _ => none
  | (b, v) :: rest, a => if a = b then some v else Store.read rest a

/-- Store a value at a key, keeping the keys strictly rising. -/
def Store.write {α : Type} : List (Nat × α) → Nat → α → List (Nat × α)
  | [], a, v => [(a, v)]
  | (b, w) :: rest, a, v =>
    if a < b then (a, v) :: (b, w) :: rest
    else if a = b then (a, v) :: rest
    else (b, w) :: Store.write rest a v

/-- The canonical form of a store: keys strictly rising. No entry equals what an unlisted key reads as, since that is no
value at all. -/
abbrev Store.wf {α : Type} (m : List (Nat × α)) : Prop := (m.map Prod.fst).Pairwise (· < ·)

/-- The canonical form of a byte buffer. -/
abbrev Memory.wf (m : Memory) : Prop := Store.wf m

/-- `MemRead(SP:a, 1)` of R12: the byte a buffer holds at an offset, none where no value was written. -/
def readByte (m : Memory) (a : Nat) : Option Byte := Store.read m a

/-- `MemWrite(SP:a, 1, v)` of R12. -/
def writeByte (m : Memory) (a : Nat) (v : Byte) : Memory := Store.write m a v

/-- `MemWrite` of consecutive bytes from offset `a` on (R167). -/
def writeBytes (m : Memory) (a : Nat) : List Byte → Memory
  | [] => m
  | v :: rest => writeBytes (writeByte m a v) (a + 1) rest

/-- WRITTEN[a] (R46): whether IN offset `a` holds a value. -/
def State.written (s : State) (a : Nat) : Bool := (readByte s.inBuf a).isSome

/-- The draws of the coming step are drawn afresh (log 4). -/
def State.tick (s : State) : State := { s with epoch := s.epoch + 1 }

/-- The turn of this step is taken. -/
def State.popTurn (s : State) : State := { s with turns := s.turns.tail }

/-- The host's operation of this step is taken. -/
def State.popHost (s : State) : State := { s with host := s.host.tail }

/-- A host read returns: only the host's side of the bus changes (R72, R218). -/
def State.respond (d : BusData) (s : State) : State := { s with rdata := some d }

/-- `START(phase)` of R217, the effect common to ENCODE and DECODE. DICT, IN, OUT and IN_LEN keep their contents. -/
def State.start (ph : Phase) (s : State) : State :=
  { s.flagsAtStart with
    n := s.inLen, i := 0, p := 0, c := 0, k := 0, r := 0, o := 0
    errPos := 0, errInfo := 0, phase := ph, tainted := false, doneUnseen := true }

/-- Completion of a command without error (R133, R168). -/
def State.complete (s : State) : State := { s.flagsAtEnd .none with phase := .idle }

/-- Fault entry, `raise E(pos, info)` of R236: the one operation every error is taken by. N, I, P, C, K, R, O, DICT and OUT
keep their values. -/
def State.raise (e : ErrCode) (pos info : Word) (s : State) : State :=
  { s.flagsAtEnd e with phase := .idle, errPos := pos, errInfo := info }

/-- The last arm of E_BEGIN: an empty match at the cursor (R130). -/
def State.beginRecord (s : State) : State := { s with c := 0, p := s.i, phase := .eSym }

/-- The last arm of E_SYM: the match extends by one symbol to entry `f` (R131). -/
def State.extendMatch (f : Index) (s : State) : State := { s with c := f, p := s.p + 1 }

/-- After an emission in E_SYM: the cursor moves past the symbol and the next record begins (R131). -/
def State.nextRecord (s : State) : State := { s with i := s.p + 1, phase := .eBegin }

/-- The 3 bytes of `FRAME(ref, sym)`, in wire order (R191). -/
def frameBytes (ref : Index) (sym : Byte) : List Byte := [refHigh ref, refLow ref, sym]

/-- The state after `EMIT(c, s)` (R132): the record framed at O, and its entry inserted at K + 1. -/
def State.emitted (node : Index) (sym : Byte) (s : State) : State :=
  { s with
    outBuf := writeBytes s.outBuf s.o.toNat (frameBytes node sym)
    o := s.o + 3
    r := s.r + 1
    dict := Store.write s.dict (s.k.toNat + 1) ⟨node, sym⟩
    k := s.k + 1 }

/-- D_BEGIN's second arm (R166). -/
def State.enterRecords (s : State) : State := { s with phase := .dRec }

/-- A decoded record whose entry is `e` takes effect (R164, R165, R167): its bytes are appended to OUT, its entry is stored
while the record's index is at most DICT_CAP, and it counts in R. -/
def State.appended (ref : Index) (sym : Byte) (e : List Byte) (s : State) : State :=
  { s with
    outBuf := writeBytes s.outBuf s.o.toNat e
    o := BitVec.ofNat 32 (s.o.toNat + e.length)
    dict := if s.r.toNat < s.cfg.dictCap then Store.write s.dict (s.r.toNat + 1) ⟨ref, sym⟩ else s.dict
    k := if s.r.toNat < s.cfg.dictCap then BitVec.ofNat 16 (s.r.toNat + 1) else s.k
    r := s.r + 1 }

/-- Whether a host write of IN comes where R276 forbids it: from the start of a command to the STATUS read that shows DONE = 1,
all of BUSY = 1 (R80) included. -/
def State.inWriteForbidden (s : State) : Bool := s.busy || s.doneUnseen

/-- A host write of IN byte `a` (R219): it stores its value and nothing else, but where R276 forbids it the write makes the
latest command's outputs unspecified (R80; log 6). It writes no flag (R35, R44): R80 names STATUS.ERR at completion, and a
command that has ended has its ERR (DESIGN CHOICE, log 26). -/
def State.storeIn (a : Nat) (v : Byte) (s : State) : State :=
  { s with inBuf := writeByte s.inBuf a v, tainted := s.tainted || s.inWriteForbidden }

/-- A host write of IN_LEN that takes effect (R216). -/
def State.storeInLen (v : Word) (s : State) : State := { s with inLen := v }

/-- The reset event (R270, R272): every piece of state takes its value of R47. The parameters, the host's program and what
the host has read are no state of LZ78E, and unspecified contents are drawn afresh (log 20). -/
def State.resetEvent (s : State) : State :=
  { State.resetWith s.cfg with epoch := s.epoch + 1, host := s.host, turns := s.turns, rdata := s.rdata }

end Sys2Proof.Machine
end

