-- ==== Sys2Proof/Machine/Operands.lean ====
section
/-! DEFINITION. Where the operands of a step come from: an IN byte (R131), the record at the record position (R195), the
dictionary search FIND (R124), the string STR of an entry (R28), and the host registers as they are read (R31 to R43, R218). -/

namespace Sys2Proof.Machine

/-- An engine read of one IN byte (R70). UnwrittenInput where nobody has written the byte (R82, R239). -/
def engineReadIn (s : State) (a : Nat) : Except Fault Byte :=
  if a < s.cfg.inMax then
    match readByte s.inBuf a with
    | some v => .ok v
    | none => .error (.unwrittenInput a)
  else .error (.inOffsetAbsent a)

/-- `DESER(a)`'s three reads, in order (R195); `decodeRecord` assembles their fields. -/
def deser (s : State) (a : Nat) : Except Fault (Byte × Byte × Byte) :=
  match engineReadIn s a with
  | .error f => .error f
  | .ok b0 =>
    match engineReadIn s (a + 1) with
    | .error f => .error f
    | .ok b1 =>
      match engineReadIn s (a + 2) with
      | .error f => .error f
      | .ok b2 => .ok (b0, b1, b2)

/-- A valid dictionary entry: indices 1..K only; entries above K are never read (R25). -/
def State.entry (s : State) (j : Nat) : Option DictEntry :=
  if 1 ≤ j ∧ j ≤ s.k.toNat then Store.read s.dict j else none

/-- `FIND(c, s)` (R124): the least valid index whose entry is (c, s), 0 if there is none. -/
def find (s : State) (node : Index) (sym : Byte) : Index :=
  match (List.range' 1 s.k.toNat).find? (fun j => s.entry j == some ⟨node, sym⟩) with
  | some j => BitVec.ofNat 16 j
  | none => 0

/-- The recursion of STR (R28) with fuel: none where the chain reaches an index that is no valid entry, or runs out. -/
def entryString (s : State) : Nat → Nat → Option (List Byte)
  | 0, _ => none
  | fuel + 1, j =>
    match s.entry j with
    | none => none
    | some e =>
      if e.parent = 0 then some [e.sym]
      else (entryString s fuel e.parent.toNat).map (· ++ [e.sym])

/-- `STR(j)` (R28). A chain of entries with PARENT below its own index (R26) has at most `j` entries, so `j` is fuel enough. -/
def str (s : State) (j : Nat) : Option (List Byte) := entryString s j j

/-- The string a record extends: empty for reference 0, STR(ref) otherwise (R27, R167). -/
def baseString (s : State) (ref : Index) : Option (List Byte) :=
  if ref = 0 then some [] else str s ref.toNat

/-- 3·R, the IN offset of the next record (R24, R167). -/
def State.recordPos (s : State) : Nat := 3 * s.r.toNat

/-- The register at an offset of the REG window, none where no register is (R30). -/
def regAt : Nat → Option HostReg
  | 0x00 => some .ctrl
  | 0x04 => some .status
  | 0x08 => some .inLen
  | 0x0C => some .outLen
  | 0x10 => some .recCount
  | 0x14 => some .dictCount
  | 0x18 => some .errPos
  | 0x1C => some .errInfo
  | _ => none

/-- The offset of a register in the REG window (R30). -/
def regOffset : HostReg → Nat
  | .ctrl => 0x00
  | .status => 0x04
  | .inLen => 0x08
  | .outLen => 0x0C
  | .recCount => 0x10
  | .dictCount => 0x14
  | .errPos => 0x18
  | .errInfo => 0x1C

/-- The specified contents of a register: OUT_LEN, REC_COUNT and DICT_COUNT are views of O, R and K (R31 to R43). -/
def regContents (s : State) : HostReg → Word
  | .ctrl => 0
  | .status => s.statusWord
  | .inLen => s.inLen
  | .outLen => s.o
  | .recCount => s.r
  | .dictCount => s.k.zeroExtend 32
  | .errPos => s.errPos
  | .errInfo => s.errInfo

/-- A draw for a register: any value, but bits 31:16 of DICT_COUNT are hardwired to 0 (R39, R42; log 5). -/
def drawFor (s : State) (reg : HostReg) : Word :=
  match reg with
  | .dictCount => ((Config.drawReg s.epoch (regOffset reg)).setWidth 16).setWidth 32
  | _ => Config.drawReg s.epoch (regOffset reg)

/-- Whether the results of the latest command are unspecified: while busy (R77), until a STATUS read shows DONE = 1 (R43, R277),
or because the host wrote IN where R276 forbids it (R80). -/
def State.unspecified (s : State) : Bool := s.busy || s.doneUnseen || s.tainted

/-- Whether a register is one of the result registers (R77). -/
def isResult : HostReg → Bool
  | .ctrl | .status | .inLen => false
  | .outLen | .recCount | .dictCount | .errPos | .errInfo => true

/-- The value a host read of a register returns (R218): its contents, or a draw for a result register while the results are
unspecified (R77, R80, R277). -/
def readReg (s : State) (reg : HostReg) : Word :=
  if isResult reg && s.unspecified then drawFor s reg else regContents s reg

/-- Whether a read of a register shows the host DONE = 1 (R76). -/
def State.showsDone (s : State) : HostReg → Bool
  | .status => s.done
  | .ctrl | .inLen | .outLen | .recCount | .dictCount | .errPos | .errInfo => false

/-- A host read of a register returns (R218). LZ78E does not change (R72); what the host has seen does (log 27). -/
def State.respondReg (reg : HostReg) (s : State) : State :=
  { s.respond (.word (readReg s reg)) with doneUnseen := s.doneUnseen && !s.showsDone reg }

/-- The value a host read of IN offset `a` returns (R219): the last value written, a draw where none was. -/
def hostReadIn (s : State) (a : Nat) : Byte :=
  (readByte s.inBuf a).getD (Config.drawIn s.epoch a)

/-- The value a host read of OUT offset `a` returns (R220): the stored byte when the results are specified and `a` is below
OUT_LEN, a draw otherwise (R76, R77, R80, R83, R277; log 25). -/
def hostReadOut (s : State) (a : Nat) : Byte :=
  if s.unspecified then Config.drawOut s.epoch a
  else if a < s.o.toNat then (readByte s.outBuf a).getD (Config.drawOut s.epoch a)
  else Config.drawOut s.epoch a

end Sys2Proof.Machine
end

