-- ==== Sys2Proof/Machine/Commands.lean ====
section
/-! DEFINITION. The meanings of the command words, the CTRLW family (R210 to R217). -/

namespace Sys2Proof.Machine

/-- A command that starts a run: ignored while STATUS.BUSY = 1 (R215), START otherwise (R217). -/
def startCommand (ph : Phase) (s : State) : Result :=
  if s.busy then .next s else .next (s.start ph)

/-- NOP (R211): nothing changes, busy or not. -/
def execNop (s : State) : Result := .next s

/-- ENCODE (R212): START(E_BEGIN). -/
def execEncode (s : State) : Result := startCommand .eBegin s

/-- DECODE (R213): START(D_BEGIN). -/
def execDecode (s : State) : Result := startCommand .dBegin s

end Sys2Proof.Machine
end

