-- ==== Sys2Proof/Machine/Records.lean ====
section
/-! DEFINITION. The meanings of the records, the REC24 family: DEC's execution of one record (R161 to R165, R167). The record
executed is record R + 1 of the stream. PHASE is the engine's sequencing (R44) and is tested by `engineStep`, not here
(log 14). -/

namespace Sys2Proof.Machine

/-- 3·R as a register value, the position a record's error is recorded at (R234, R235). -/
def errRecordPos (s : State) : Word := BitVec.ofNat 32 s.recordPos

/-- The body of D_REC after DESER (R167): bad reference (R163), then output overflow (R165), in that order (R240), else the
record's entry is appended. -/
def runRecord (ref : Index) (sym : Byte) (s : State) : Result :=
  if s.r.toNat < ref.toNat then
    .next (s.raise .corruptBadReference (errRecordPos s) (ref.zeroExtend 32))
  else
    match baseString s ref with
    | none => .fault (.entryUndefined ref.toNat)
    | some base =>
      if s.cfg.outMax < s.o.toNat + (base ++ [sym]).length then
        .next (s.raise .outputOverflow (errRecordPos s) 0)
      else .next (s.appended ref sym (base ++ [sym]))

/-- LIT (R161): the entry is the single symbol. -/
def execLit (sym : Byte) (s : State) : Result := runRecord 0 sym s

/-- EXT (R162): the entry is STR(ref) followed by the symbol. -/
def execExt (ref : Index) (sym : Byte) (s : State) : Result := runRecord ref sym s

end Sys2Proof.Machine
end

