-- ==== Sys2Proof/Machine/Bus.lean ====
section
/-! DEFINITION. The host's accesses (R66, R69, R210 to R220, R238), its program (R103, R104), and the placing of an
instruction where the next step reads it. -/

namespace Sys2Proof.Machine

/-- The three windows of the host bus (R66). -/
inductive Window where
  | reg | inp | out
  deriving DecidableEq, Repr

/-- The window a host address lies in and its offset there (R66), none outside the three. -/
def locate (c : Params) (addr : Nat) : Option (Window × Nat) :=
  if c.regBase ≤ addr ∧ addr < c.regBase + 32 then some (.reg, addr - c.regBase)
  else if c.inBase ≤ addr ∧ addr < c.inBase + c.inMax then some (.inp, addr - c.inBase)
  else if c.outBase ≤ addr ∧ addr < c.outBase + c.outMax then some (.out, addr - c.outBase)
  else none

/-- A host write of CTRL (R210): a word that is no legal command is refused first (R214), a legal one is executed. -/
def writeCtrl (w : Word) (s : State) : Result :=
  match decodeCtrl w with
  | .ok i => exec i s
  | .error _ => .refused (.reservedCommand w)

/-- A host write of IN_LEN (R216). A value above IN_MAX is refused whether or not the engine is busy (log 11). -/
def writeInLen (v : Word) (s : State) : Result :=
  if s.cfg.inMax < v.toNat then .refused (.inLenTooLarge v)
  else if s.busy then .next s
  else .next (s.storeInLen v)

/-- A host write of a register (R30, R69). -/
def writeReg (reg : HostReg) (v : Word) (s : State) : Result :=
  match reg with
  | .ctrl => writeCtrl v s
  | .inLen => writeInLen v s
  | .status | .outLen | .recCount | .dictCount | .errPos | .errInfo => .refused (.readOnlyRegister reg)

/-- One host bus access (R69): aligned 32-bit accesses of REG, byte accesses of IN, byte reads of OUT; every other access is
refused by name (R238). -/
def hostAccess (a : Access) (s : State) : Result :=
  match a with
  | .rd32 addr =>
    match locate s.cfg addr with
    | some (.reg, off) =>
      match regAt off with
      | some reg => .next (s.respondReg reg)
      | none => .refused (.misaligned addr)
    | some _ => .refused (.wrongWidth addr)
    | none => .refused (.outsideWindows addr)
  | .wr32 addr v =>
    match locate s.cfg addr with
    | some (.reg, off) =>
      match regAt off with
      | some reg => writeReg reg v s
      | none => .refused (.misaligned addr)
    | some _ => .refused (.wrongWidth addr)
    | none => .refused (.outsideWindows addr)
  | .rd8 addr =>
    match locate s.cfg addr with
    | some (.inp, off) => .next (s.respond (.byte (hostReadIn s off)))
    | some (.out, off) => .next (s.respond (.byte (hostReadOut s off)))
    | some (.reg, _) => .refused (.wrongWidth addr)
    | none => .refused (.outsideWindows addr)
  | .wr8 addr v =>
    match locate s.cfg addr with
    | some (.inp, off) => .next (s.storeIn off v)
    | some (.out, _) => .refused (.outIsReadOnly addr)
    | some (.reg, _) => .refused (.wrongWidth addr)
    | none => .refused (.outsideWindows addr)
  | .rdOther _ addr | .wrOther _ addr =>
    match locate s.cfg addr with
    | some _ => .refused (.wrongWidth addr)
    | none => .refused (.outsideWindows addr)

/-- Whether an access is a read; a read changes no state of LZ78E, the draws included (R72; log 4). -/
def Access.isRead : Access → Bool
  | .rd32 _ | .rd8 _ | .rdOther _ _ => true
  | .wr32 _ _ | .wr8 _ _ | .wrOther _ _ => false

/-- A host access as a step: a write lets the unspecified values be drawn afresh, a read does not (R72; log 4). -/
def accessStep (a : Access) (s : State) : Result :=
  if a.isRead then hostAccess a s else hostAccess a s.tick

/-- POLL's next read of STATUS (R104; log 23): the operation is done once bit 0 of the value read is 0. -/
def pollStep (s : State) : Result :=
  if (readReg s .status).getLsbD 0 then .next (s.respondReg .status)
  else .next (s.popHost.respondReg .status)

/-- The host's next operation; a host whose program has ended does nothing (log 3). -/
def hostStep (s : State) : Result :=
  match s.host with
  | [] => .next s
  | .access a :: _ => accessStep a s.popHost
  | .poll :: _ => pollStep s
  | .writeRead addr :: _ =>
    match s.rdata with
    | some (.byte v) => accessStep (.wr8 addr v) s.popHost
    | _ => .refused .noByteRead

/-- `WR <reg>, <v32>` (R103). -/
def hostWr (c : Params) (reg : HostReg) (v : Word) : HostOp := .access (.wr32 (c.regBase + regOffset reg) v)

/-- `RD <reg>` (R103). -/
def hostRd (c : Params) (reg : HostReg) : HostOp := .access (.rd32 (c.regBase + regOffset reg))

/-- `WRB IN[a], v8` (R103). -/
def hostWrb (c : Params) (a : Nat) (v : Byte) : HostOp := .access (.wr8 (c.inBase + a) v)

/-- `RDB OUT[a]` (R103). -/
def hostRdb (c : Params) (a : Nat) : HostOp := .access (.rd8 (c.outBase + a))

/-- The pseudo-instruction `ENCODE` (R104). -/
def hostEncode (c : Params) : List HostOp := [hostWr c .ctrl 0x00000001#32]

/-- The pseudo-instruction `DECODE` (R104). -/
def hostDecode (c : Params) : List HostOp := [hostWr c .ctrl 0x00000002#32]

/-- The byte writes of `LOADIN` from offset `a` on (R104). -/
def hostLoadFrom (c : Params) (a : Nat) : List Byte → List HostOp
  | [] => []
  | v :: rest => hostWrb c a v :: hostLoadFrom c (a + 1) rest

/-- The pseudo-instruction `LOADIN b0 b1 …` (R104). -/
def hostLoadin (c : Params) (bytes : List Byte) : List HostOp :=
  hostLoadFrom c 0 bytes ++ [hostWr c .inLen (BitVec.ofNat 32 bytes.length)]

/-- The pseudo-instruction `COPYOUT n` (R104): for each offset, RDB OUT[a], then WRB IN[a] of the byte just read. -/
def hostCopyout (c : Params) (n : Nat) : List HostOp :=
  (List.range n).flatMap fun a => [hostRdb c a, .writeRead (c.inBase + a)]

/-- A command word placed as the host's next access, with the host to move next (log 16). -/
def placeCommand (w : Word) (s : State) : State :=
  { s with
    host := .access (.wr32 (s.cfg.regBase + regOffset .ctrl) w) :: s.host
    turns := .host :: s.turns }

/-- A record placed as the next record of a running DECODE, with the engine to move next (log 16): its bytes at IN[3R..3R+3),
a stream that ends after it, and PHASE at D_REC. -/
def placeRecord (b0 b1 b2 : Byte) (s : State) : State :=
  { s with
    inBuf := writeBytes s.inBuf s.recordPos [b0, b1, b2]
    n := BitVec.ofNat 32 (s.recordPos + 3)
    phase := .dRec
    busy := true
    done := false
    doneUnseen := true
    turns := .engine :: s.turns }

end Sys2Proof.Machine
end

