-- ==== Sys2Proof/Machine/Encoder.lean ====
section
/-! DEFINITION. The ENCODE steps of the engine (R130 to R132). -/

namespace Sys2Proof.Machine

/-- `E_BEGIN` (R130): completion is tested before capacity (R240). -/
def engineEBegin (s : State) : Result :=
  if s.i = s.n then .next s.complete
  else if s.k.toNat = s.cfg.dictCap then .next (s.raise .capacityExceeded s.i 0)
  else .next s.beginRecord

/-- `EMIT(c, s)` (R132) with FRM's bytes (R191). The two faults are for accesses to what R60 says does not exist; no run
reaches them (R132; log 10). -/
def emit (node : Index) (sym : Byte) (s : State) : Result :=
  if s.cfg.outMax < s.o.toNat + 3 then .fault (.outOffsetAbsent (s.o.toNat + 2))
  else if s.cfg.dictCap < s.k.toNat + 1 then .fault (.dictIndexAbsent (s.k.toNat + 1))
  else .next (s.emitted node sym)

/-- The emitting arm of E_SYM (R131): EMIT, then the next record begins after this symbol. -/
def emitAndAdvance (sym : Byte) (s : State) : Result :=
  match emit s.c sym s with
  | .next t => .next t.nextRecord
  | .fault f => .fault f
  | .refused q => .refused q

/-- Whether the symbol at P is the last of the source, P + 1 = N (R127, R131). -/
def State.atLastSymbol (s : State) : Bool := s.p.toNat + 1 == s.n.toNat

/-- `E_SYM` (R131): no search on the last symbol (R127). -/
def engineESym (s : State) : Result :=
  match engineReadIn s s.p.toNat with
  | .error f => .fault f
  | .ok sym =>
    if s.atLastSymbol then emitAndAdvance sym s
    else if find s s.c sym = 0 then emitAndAdvance sym s
    else .next (s.extendMatch (find s s.c sym))

end Sys2Proof.Machine
end

