-- ==== Sys2Proof/Machine/Decoder.lean ====
section
/-! DEFINITION. The DECODE steps of the engine (R166, R167), and the engine's step by PHASE (R140). -/

namespace Sys2Proof.Machine

/-- `D_BEGIN` (R166): the stream length check, before any record. -/
def engineDBegin (s : State) : Result :=
  if s.n.toNat % 3 ≠ 0 then .next (s.raise .corruptTruncated s.n 0)
  else .next s.enterRecords

/-- Whether all records of the stream are done, 3·R = N (R167). -/
def State.allRecordsDone (s : State) : Bool := s.recordPos == s.n.toNat

/-- `D_REC` (R167): completion (R168), or the record at 3·R is read (R195), decoded (R93) and executed. -/
def engineDRec (s : State) : Result :=
  if s.allRecordsDone then .next s.complete
  else
    match deser s s.recordPos with
    | .error f => .fault f
    | .ok (b0, b1, b2) => exec (decodeRecord b0 b1 b2) s

/-- One engine step by PHASE; an idle engine takes no step (R251; log 3). A step draws its free values afresh (log 4). -/
def engineStep (s : State) : Result :=
  match s.phase with
  | .idle => .next s
  | .eBegin => engineEBegin s.tick
  | .eSym => engineESym s.tick
  | .dBegin => engineDBegin s.tick
  | .dRec => engineDRec s.tick

end Sys2Proof.Machine
end

