-- ==== Sys2Proof/Machine/Step.lean ====
section
/-! DEFINITION. One step of the machine: a turn of the engine, of the host, or of the reset input (R14, R74, R270). -/

namespace Sys2Proof.Machine

/-- Who takes the next step: the head of `turns`; when that list is empty, the engine while a command runs (the progress
assumption R283), else the host (log 2). -/
def State.nextTurn (s : State) : Turn :=
  match s.turns with
  | t :: _ => t
  | [] => if s.phase = .idle then .host else .engine

/-- One step. -/
def step (s : State) : Host.Outcome State Fault Refusal :=
  match s.nextTurn with
  | .engine => engineStep s.popTurn
  | .host => hostStep s.popTurn
  | .reset => .next s.popTurn.resetEvent

/-- `s` with an instruction placed where the next step reads it (log 16): a 32-bit command word as the host's next write of
CTRL, a 24-bit record word (R91) as the next record of a DECODE. -/
def State.withFetchWord (s : State) (nbits w : Nat) : State :=
  if nbits = 32 then placeCommand (BitVec.ofNat 32 w) s
  else if nbits = 24 then placeRecord (recordByte0 w) (recordByte1 w) (recordByte2 w) s
  else s

end Sys2Proof.Machine
end

