-- ==== Sys2Proof/Machine/Functions.lean ====
section
/-! DEFINITION. The functional core of LZ78E (R19): encode_inf and encode (R120, R129), frame and deframe (R192, R194), decode
(R160), as functions on byte and record sequences. No step of the machine calls them: the statements compare the steps with
them (R135, R171). -/

namespace Sys2Proof.Codec

open Sys2Proof.Machine

/-- `Record(reference_index, trailing_symbol)` (R15). The reference is a natural number, since encode_inf has no capacity
limit (R120); on the wire it has 16 bits (R7; log 18). -/
structure Record where
  /-- reference_index. -/
  ref : Nat
  /-- trailing_symbol. -/
  sym : Byte
  deriving DecidableEq, Repr

/-- The map D of R120, from byte strings to indices; the first pair of a key is the one in force. -/
abbrev KeyMap := List (List Byte × Nat)

/-- `D[e]`, none when `e` is no key. -/
def keyIndex (d : KeyMap) (e : List Byte) : Option Nat := (d.find? (fun kv => kv.1 == e)).map Prod.snd

/-- `e ∈ D` (R120). -/
def isKey (d : KeyMap) (e : List Byte) : Bool := (keyIndex d e).isSome

/-- The match loop (R121) on `rest`, the source from the cursor on: grow `l` while the extended slice fits and the current
slice is a key. -/
def matchLength (d : KeyMap) (rest : List Byte) : Nat → Nat → Nat
  | 0, l => l
  | fuel + 1, l =>
    if l < rest.length ∧ isKey d (rest.take l) then matchLength d rest fuel (l + 1) else l

/-- The emission rule for a non-empty entry (R122). Its prefix is a key by construction of the match loop. -/
def recordFor (d : KeyMap) (e : List Byte) : Record :=
  if 1 < e.length then ⟨(keyIndex d e.dropLast).getD 0, e.getLastD 0⟩ else ⟨0, e.headD 0⟩

/-- The main loop of R120 from a cursor on: each record with its entry, entry number `count + 1` inserted next (R123). -/
def encodeFrom : Nat → KeyMap → Nat → List Byte → List (Record × List Byte)
  | 0, _, _, _ => []
  | fuel + 1, d, count, rest =>
    if rest = [] then []
    else
      let e := rest.take (matchLength d rest rest.length 1)
      (recordFor d e, e) :: encodeFrom fuel ((e, count + 1) :: d) (count + 1) (rest.drop e.length)

/-- encode_inf's records with their entries (R120). -/
def encodeEntries (src : List Byte) : List (Record × List Byte) := encodeFrom src.length [] 0 src

/-- `encode_inf` (R120). -/
def encodeInf (src : List Byte) : List Record := (encodeEntries src).map Prod.fst

/-- What `encode` answers (R129). -/
inductive EncodeResult where
  /-- The records of the source. -/
  | records (rs : List Record)
  /-- CapacityExceeded, with the number of source bytes the first DICT_CAP records encode. -/
  | capacityExceeded (pos : Nat)
  deriving DecidableEq, Repr

/-- `encode` (R129) with capacity `cap`. -/
def encode (cap : Nat) (src : List Byte) : EncodeResult :=
  if (encodeInf src).length ≤ cap then .records (encodeInf src)
  else .capacityExceeded (((encodeEntries src).take cap).map (fun re => re.2.length)).sum

/-- `frame` (R192): the bytes of each record in order (R191). -/
def frame (rs : List Record) : List Byte := rs.flatMap fun x => frameBytes (BitVec.ofNat 16 x.ref) x.sym

/-- CorruptStream and its two causes (R15, R163, R193). -/
inductive CorruptStream where
  /-- The stream's length is no multiple of 3 (R193). -/
  | truncated
  /-- Record `j` (1-based) refers to an entry not yet created (R163). -/
  | badReference (j ref : Nat)
  deriving DecidableEq, Repr

/-- The records of a stream's whole 3-byte groups, in order (R194). -/
def cutRecords : List Byte → List Record
  | b0 :: b1 :: b2 :: rest => ⟨(assembleRef b0 b1).toNat, b2⟩ :: cutRecords rest
  | _ => []

/-- `deframe` (R194). -/
def deframe (w : List Byte) : Except CorruptStream (List Record) :=
  if w.length % 3 ≠ 0 then .error .truncated else .ok (cutRecords w)

/-- The entry a record creates after the entries `es`, none for a bad reference (R160, R163). -/
def entryFor (es : List (List Byte)) (x : Record) : Option (List Byte) :=
  if x.ref = 0 then some [x.sym] else (es[x.ref - 1]?).map (· ++ [x.sym])

/-- The loop of R160 after the entries `es` and the output `out`. -/
def decodeFrom (es : List (List Byte)) (out : List Byte) : List Record → Except CorruptStream (List Byte)
  | [] => .ok out
  | x :: rest =>
    match entryFor es x with
    | some e => decodeFrom (es ++ [e]) (out ++ e) rest
    | none => .error (.badReference (es.length + 1) x.ref)

/-- `decode` (R160). -/
def decode (rs : List Record) : Except CorruptStream (List Byte) := decodeFrom [] [] rs

end Sys2Proof.Codec
end

