-- ==== Sys2Proof/Safety.lean ====
section
/-! DEFINITION. What a run of the machine satisfies: the invariant the statements use as a premise in place of reachability,
runs of engine steps, and what it means that two states are at the same point of the same command. Each part is a decidable
proposition, so that a concrete state can be checked against it. -/

namespace Sys2Proof.Machine

/-- Index `j` is stored, with a PARENT below `j` (R25, R26). -/
abbrev State.entryStored (s : State) (j : Nat) : Prop :=
  ((Store.read s.dict j).any fun e => decide (e.parent.toNat < j)) = true

/-- The dictionary table: canonical form, indices 1..DICT_CAP (R60), K at most DICT_CAP (R23), and every valid entry stored
with an earlier PARENT (R25, R26, R29). -/
abbrev State.DictOk (s : State) : Prop :=
  Store.wf s.dict ∧ (∀ x ∈ s.dict, 1 ≤ x.1 ∧ x.1 ≤ s.cfg.dictCap) ∧ s.k.toNat ≤ s.cfg.dictCap ∧
  ∀ j, j < s.k.toNat → s.entryStored (j + 1)

/-- The two byte buffers: canonical form, offsets that exist (R60), O at most OUT_MAX (R23), and every OUT byte below O
written (R63). -/
abbrev State.BuffersOk (s : State) : Prop :=
  Memory.wf s.inBuf ∧ Memory.wf s.outBuf ∧ (∀ x ∈ s.inBuf, x.1 < s.cfg.inMax) ∧ (∀ x ∈ s.outBuf, x.1 < s.cfg.outMax) ∧
  s.o.toNat ≤ s.cfg.outMax ∧ ∀ a, a < s.o.toNat → (readByte s.outBuf a).isSome = true

/-- STATUS and the error record: BUSY = 1 exactly when PHASE ≠ IDLE (R33), never BUSY with DONE (R32), no error without DONE
(R35, R40, R41), lengths within IN_MAX (R23, R36); a running command's end is not yet seen, and an unseen end is that of a
command that was started (R277; log 27). -/
abbrev State.FlagsOk (s : State) : Prop :=
  (s.busy = true ↔ s.phase ≠ .idle) ∧ ¬ (s.busy = true ∧ s.done = true) ∧
  (s.done = false → s.err = .none ∧ s.errPos = 0 ∧ s.errInfo = 0) ∧
  s.inLen.toNat ≤ s.cfg.inMax ∧ s.n.toNat ≤ s.cfg.inMax ∧
  (s.busy = true → s.doneUnseen = true) ∧ (s.doneUnseen = true → s.busy = true ∨ s.done = true)

/-- A running ENCODE: I ≤ N, O = 3·R, K = R, and each record has consumed a symbol, R ≤ I (R23, R132, R134). -/
abbrev State.EncodeOk (s : State) : Prop :=
  s.i.toNat ≤ s.n.toNat ∧ s.o.toNat = 3 * s.r.toNat ∧ s.k.toNat = s.r.toNat ∧ s.r.toNat ≤ s.i.toNat

/-- In E_SYM: I ≤ P < N, C ≤ K (R23), and room for the record, K < DICT_CAP (R130). -/
abbrev State.MatchOk (s : State) : Prop :=
  s.i.toNat ≤ s.p.toNat ∧ s.p.toNat < s.n.toNat ∧ s.c.toNat ≤ s.k.toNat ∧ s.k.toNat < s.cfg.dictCap

/-- In D_REC: whole records only (R166), 3·R ≤ N (R173), and K = min(R, DICT_CAP) (R164). -/
abbrev State.DecodeOk (s : State) : Prop :=
  s.n.toNat % 3 = 0 ∧ s.recordPos ≤ s.n.toNat ∧ s.k.toNat = min s.r.toNat s.cfg.dictCap

/-- The invariant of every run from reset. -/
abbrev State.Inv (s : State) : Prop :=
  s.cfg.valid ∧ s.DictOk ∧ s.BuffersOk ∧ s.FlagsOk ∧
  (s.phase = .eBegin ∨ s.phase = .eSym → s.EncodeOk) ∧ (s.phase = .eSym → s.MatchOk) ∧
  (s.phase = .dBegin → s.r = 0 ∧ s.k = 0 ∧ s.o = 0) ∧ (s.phase = .dRec → s.DecodeOk)

/-- `m` engine steps, stopping at the first fault or refusal. -/
def engineRun : Nat → State → Result
  | 0, s => .next s
  | m + 1, s =>
    match engineStep s with
    | .next t => engineRun m t
    | .fault f => .fault f
    | .refused q => .refused q

/-- IN[0..len(x)) = x, every byte of it written. -/
abbrev State.inHolds (s : State) (x : List Byte) : Prop := ∀ a, a < x.length → readByte s.inBuf a = x[a]?

/-- OUT[0..len(x)) = x. -/
abbrev State.outHolds (s : State) (x : List Byte) : Prop := ∀ a, a < x.length → readByte s.outBuf a = x[a]?

/-- Two states at the same point of the same command, as far as the command can see (R84): the same parameters, registers and
flags, IN below N, valid dictionary entries and OUT below O. Older dictionary entries, other bytes of IN and OUT, IN_LEN, the
draws and the host's side may differ. -/
def State.sameCommand (s t : State) : Prop :=
  s.cfg = t.cfg ∧ s.phase = t.phase ∧ s.n = t.n ∧ s.i = t.i ∧ s.p = t.p ∧ s.c = t.c ∧ s.k = t.k ∧ s.r = t.r ∧ s.o = t.o ∧
  s.busy = t.busy ∧ s.done = t.done ∧ s.err = t.err ∧ s.errPos = t.errPos ∧ s.errInfo = t.errInfo ∧
  s.tainted = false ∧ t.tainted = false ∧
  (∀ a, a < s.n.toNat → readByte s.inBuf a = readByte t.inBuf a) ∧
  (∀ j, s.entry j = t.entry j) ∧
  (∀ a, a < s.o.toNat → readByte s.outBuf a = readByte t.outBuf a)

end Sys2Proof.Machine
end

