-- ==== Sys2Proof/Certificates/Slice0/Obligations.lean ====
section
/-! DEFINITION. The statements for the provers, made from the numbered rules of spec/. Free values (the draws) stand as
constants of Config, so each statement holds whatever they are; the parameters are fields of `cfg`, so each holds for every
value of them that its premises admit. -/

open Sys2Proof Sys2Proof.Machine

/-! ## Encodings -/

/-- Words written out from R90, R99 and R101, and the examples of 95_test_vectors.md F6 to F9. -/
def Obligations.WordsOfTheTableDecode : Prop :=
  decodeCtrl 0x00000000#32 = .ok .nop ∧ decodeCtrl 0x00000001#32 = .ok .encode ∧
  decodeCtrl 0x00000002#32 = .ok .decode ∧
  decodeRecord 0x00 0x00 0x41 = .lit 0x41 ∧ decodeRecord 0x00 0x00 0x00 = .lit 0x00 ∧
  decodeRecord 0x00 0x01 0x61 = .ext 1 0x61 ∧ decodeRecord 0x00 0x05 0x42 = .ext 5 0x42 ∧
  decodeRecord 0x01 0x00 0x00 = .ext 256 0x00 ∧ decodeRecord 0xFF 0xFF 0xFF = .ext 65535 0xFF

/-- Every well-formed instruction is what its encoded form decodes to, on the wire and as the table numbers bits. -/
def Obligations.DecodeOfEncodeIsIdentity : Prop :=
  ∀ i : Instr, i.wellFormed = true →
    decodeEncoded (encodeInstr i) = .ok i ∧ decodeTableWord (encodeTableWord i).1 (encodeTableWord i).2 = some i

/-- Every 3-byte group is the encoding of the well-formed record it decodes to (R94), and every command word that decodes is
the encoding of its command (R99). -/
def Obligations.EncodeOfDecodeIsIdentity : Prop :=
  (∀ b0 b1 b2 : Byte, (decodeRecord b0 b1 b2).wellFormed = true ∧
    encodeInstr (decodeRecord b0 b1 b2) = .wire b0 b1 b2) ∧
  (∀ (w : Word) (i : Instr), decodeCtrl w = .ok i → i.wellFormed = true ∧ encodeInstr i = .command w)

/-- R92: REF is byte0 · 256 + byte1, SYM is byte2, byte0 and byte1 are the halves of REF; R93: LIT and EXT by REF alone. -/
def Obligations.RecordFieldsAndKinds : Prop :=
  ∀ b0 b1 b2 : Byte,
    (assembleRef b0 b1).toNat = b0.toNat * 256 + b1.toNat ∧
    refHigh (assembleRef b0 b1) = b0 ∧ refLow (assembleRef b0 b1) = b1 ∧
    (b0.toNat * 256 + b1.toNat = 0 → decodeRecord b0 b1 b2 = .lit b2) ∧
    (b0.toNat * 256 + b1.toNat ≠ 0 → ∃ ref : Index,
      decodeRecord b0 b1 b2 = .ext ref b2 ∧ ref.toNat = b0.toNat * 256 + b1.toNat)

/-! ## Commands -/

/-- R214: a CTRL write of any other word than the three legal ones is refused, busy or not. -/
def Obligations.ReservedCommandWordsAreRefused : Prop :=
  ∀ (s : State) (w : Word), w ≠ 0x00000000#32 → w ≠ 0x00000001#32 → w ≠ 0x00000002#32 →
    hostAccess (.wr32 (s.cfg.regBase + regOffset .ctrl) w) s = .refused (.reservedCommand w)

/-- R211: the word 0 is NOP, and NOP changes nothing, busy or not. -/
def Obligations.NopChangesNothing : Prop :=
  decodeCtrl 0x00000000#32 = .ok .nop ∧ ∀ s : State, exec .nop s = .next s

/-- R212, R213, R217: when not busy, ENCODE and DECODE are START(E_BEGIN) and START(D_BEGIN). DICT, IN, OUT and IN_LEN
keep their values (R217), and so does every other field START does not name, but for the model's own marks: `tainted` is
cleared, so that a forbidden IN write of an earlier command (R80) does not touch this one's results (the model's choice of
log 6), and `doneUnseen` is set, the host having seen nothing of this command's end yet (R277; the model's choice of log 27). -/
def Obligations.CommandStartsARun : Prop :=
  ∀ s : State, s.busy = false →
    exec .encode s = .next { s with
      n := s.inLen, i := 0, p := 0, c := 0, k := 0, r := 0, o := 0, busy := true, done := false, err := .none
      errPos := 0, errInfo := 0, phase := .eBegin, tainted := false, doneUnseen := true } ∧
    exec .decode s = .next { s with
      n := s.inLen, i := 0, p := 0, c := 0, k := 0, r := 0, o := 0, busy := true, done := false, err := .none
      errPos := 0, errInfo := 0, phase := .dBegin, tainted := false, doneUnseen := true }

/-- R215: a legal command word written while busy is ignored: the running command continues, nothing is queued. No host step
stops a running command: whatever the host does, PHASE, BUSY and every counter stay. -/
def Obligations.CommandsWhileBusyAreIgnored : Prop :=
  (∀ (s : State) (w : Word), s.busy = true →
    w = 0x00000000#32 ∨ w = 0x00000001#32 ∨ w = 0x00000002#32 →
    hostAccess (.wr32 (s.cfg.regBase + regOffset .ctrl) w) s = .next s) ∧
  (∀ s t : State, s.busy = true → s.nextTurn = .host → step s = .next t →
    t.busy = true ∧ t.phase = s.phase ∧ t.n = s.n ∧ t.i = s.i ∧ t.p = s.p ∧ t.c = s.c ∧ t.k = s.k ∧ t.r = s.r ∧
    t.o = s.o ∧ t.done = s.done ∧ t.err = s.err ∧ t.errPos = s.errPos ∧ t.errInfo = s.errInfo)

/-- What NOP, ENCODE and DECODE leave unchanged: every byte of IN and OUT, every dictionary entry, IN_LEN, the parameters and
the host's side; NOP also leaves every register and flag. -/
def Obligations.CommandFrame : Prop :=
  ∀ (s t : State) (i : Instr), i = .nop ∨ i = .encode ∨ i = .decode → exec i s = .next t →
    (∀ a, readByte t.inBuf a = readByte s.inBuf a) ∧ (∀ a, readByte t.outBuf a = readByte s.outBuf a) ∧
    (∀ j, Store.read t.dict j = Store.read s.dict j) ∧ t.inLen = s.inLen ∧ t.cfg = s.cfg ∧
    t.host = s.host ∧ t.turns = s.turns ∧ t.rdata = s.rdata ∧ t.epoch = s.epoch ∧
    (i = .nop → t.phase = s.phase ∧ t.n = s.n ∧ t.i = s.i ∧ t.p = s.p ∧ t.c = s.c ∧ t.k = s.k ∧ t.r = s.r ∧
      t.o = s.o ∧ t.busy = s.busy ∧ t.done = s.done ∧ t.err = s.err ∧ t.errPos = s.errPos ∧ t.errInfo = s.errInfo ∧
      t.tainted = s.tainted ∧ t.doneUnseen = s.doneUnseen)

/-! ## Records -/

/-- R161, R164, R165: LIT with room in OUT appends its symbol to OUT at O, creates entry R + 1 while that is at most
DICT_CAP, and counts in R. -/
def Obligations.LiteralRecordAppends : Prop :=
  ∀ (s : State) (sym : Byte), s.o.toNat + 1 ≤ s.cfg.outMax →
    exec (.lit sym) s = .next { s with
      outBuf := writeByte s.outBuf s.o.toNat sym
      o := s.o + 1
      r := s.r + 1
      dict := if s.r.toNat + 1 ≤ s.cfg.dictCap then Store.write s.dict (s.r.toNat + 1) ⟨0, sym⟩ else s.dict
      k := if s.r.toNat + 1 ≤ s.cfg.dictCap then BitVec.ofNat 16 (s.r.toNat + 1) else s.k }

/-- R162, R164, R165: EXT of an entry created so far, with room in OUT, appends STR(ref) and its symbol to OUT at O, creates
entry R + 1 while that is at most DICT_CAP, and counts in R. -/
def Obligations.ExtensionRecordAppends : Prop :=
  ∀ (s : State) (ref : Index) (sym : Byte) (base : List Byte), ref ≠ 0 → ref.toNat ≤ s.r.toNat →
    str s ref.toNat = some base → s.o.toNat + (base.length + 1) ≤ s.cfg.outMax →
    exec (.ext ref sym) s = .next { s with
      outBuf := writeBytes s.outBuf s.o.toNat (base ++ [sym])
      o := BitVec.ofNat 32 (s.o.toNat + (base.length + 1))
      r := s.r + 1
      dict := if s.r.toNat + 1 ≤ s.cfg.dictCap then Store.write s.dict (s.r.toNat + 1) ⟨ref, sym⟩ else s.dict
      k := if s.r.toNat + 1 ≤ s.cfg.dictCap then BitVec.ofNat 16 (s.r.toNat + 1) else s.k }

/-- R163, R234: EXT of an entry not yet created takes CORRUPT_BAD_REFERENCE, with ERR_POS = 3·R and ERR_INFO the reference;
it comes before any overflow (R240). The ERR code is a free value when the host wrote IN while busy (R80; log 6). -/
def Obligations.BadReferenceIsTaken : Prop :=
  ∀ (s : State) (ref : Index) (sym : Byte), s.r.toNat < ref.toNat →
    exec (.ext ref sym) s = .next { s with
      phase := .idle, busy := false, done := true
      err := if s.tainted then Config.drawErr s.epoch else .corruptBadReference
      errPos := BitVec.ofNat 32 (3 * s.r.toNat), errInfo := ref.zeroExtend 32 }

/-- R165, R235: a record whose entry would pass OUT_MAX takes OUTPUT_OVERFLOW with ERR_POS = 3·R and ERR_INFO = 0, and is not
appended: LIT with an entry of one byte, EXT of an entry created so far with STR(ref) and one byte. -/
def Obligations.OutputOverflowIsTaken : Prop :=
  ∀ (s : State) (sym : Byte),
    (s.cfg.outMax < s.o.toNat + 1 → exec (.lit sym) s = .next { s with
      phase := .idle, busy := false, done := true
      err := if s.tainted then Config.drawErr s.epoch else .outputOverflow
      errPos := BitVec.ofNat 32 (3 * s.r.toNat), errInfo := 0 }) ∧
    (∀ (ref : Index) (base : List Byte), ref ≠ 0 → ref.toNat ≤ s.r.toNat → str s ref.toNat = some base →
      s.cfg.outMax < s.o.toNat + (base.length + 1) → exec (.ext ref sym) s = .next { s with
        phase := .idle, busy := false, done := true
        err := if s.tainted then Config.drawErr s.epoch else .outputOverflow
        errPos := BitVec.ofNat 32 (3 * s.r.toNat), errInfo := 0 })

/-- What LIT (reference 0) and EXT leave unchanged. The bytes stored are those of the entry, from OUT offset O on, as the
meaning computes them (`baseString`, O); a record that takes an error stores nothing and keeps every register. -/
def Obligations.RecordFrame : Prop :=
  ∀ (s t : State) (ref : Index) (sym : Byte) (i : Instr),
    (i = .lit sym ∧ ref = 0) ∨ i = .ext ref sym → exec i s = .next t →
    t.cfg = s.cfg ∧ t.n = s.n ∧ t.i = s.i ∧ t.p = s.p ∧ t.c = s.c ∧ t.inLen = s.inLen ∧
    t.tainted = s.tainted ∧ t.doneUnseen = s.doneUnseen ∧ t.epoch = s.epoch ∧ t.host = s.host ∧ t.turns = s.turns ∧ t.rdata = s.rdata ∧
    (∀ a, readByte t.inBuf a = readByte s.inBuf a) ∧
    (∀ base, baseString s ref = some base → ∀ a, a < s.o.toNat ∨ s.o.toNat + (base.length + 1) ≤ a →
      readByte t.outBuf a = readByte s.outBuf a) ∧
    (∀ j, j ≠ s.r.toNat + 1 → Store.read t.dict j = Store.read s.dict j) ∧
    ((t.phase = .idle ∧ t.busy = false ∧ t.done = true ∧ t.k = s.k ∧ t.r = s.r ∧ t.o = s.o ∧
        (∀ a, readByte t.outBuf a = readByte s.outBuf a) ∧ (∀ j, Store.read t.dict j = Store.read s.dict j)) ∨
     (t.phase = s.phase ∧ t.busy = s.busy ∧ t.done = s.done ∧ t.err = s.err ∧ t.errPos = s.errPos ∧
        t.errInfo = s.errInfo ∧ t.r = s.r + 1))

/-! ## A step runs the decoded instruction -/

/-- R210, R99: at the host's turn, a write of a legal command word to CTRL makes the step the execution of that command, after
the turn and the host's operation are taken and the draws renewed. -/
def Obligations.StepRunsTheDecodedCommand : Prop :=
  ∀ (s : State) (w : Word) (i : Instr) (rest : List HostOp),
    s.nextTurn = .host → s.host = hostWr s.cfg .ctrl w :: rest → decodeCtrl w = .ok i →
    step s = exec i { s with turns := s.turns.tail, host := rest, epoch := s.epoch + 1 }

/-- R167, R195: at the engine's turn in D_REC with 3·R ≠ N, three written bytes at IN[3R..3R+3) make the step the execution of
the record they decode to, after the turn is taken and the draws renewed. -/
def Obligations.StepRunsTheDecodedRecord : Prop :=
  ∀ (s : State) (b0 b1 b2 : Byte),
    s.nextTurn = .engine → s.phase = .dRec → 3 * s.r.toNat ≠ s.n.toNat → 3 * s.r.toNat + 2 < s.cfg.inMax →
    readByte s.inBuf (3 * s.r.toNat) = some b0 → readByte s.inBuf (3 * s.r.toNat + 1) = some b1 →
    readByte s.inBuf (3 * s.r.toNat + 2) = some b2 →
    step s = exec (decodeRecord b0 b1 b2) { s with turns := s.turns.tail, epoch := s.epoch + 1 }

/-- R14, R70, R74: at the engine's turn the step is the engine's, after the turn is taken, whatever PHASE is; and the engine's
step is that of its phase, with the draws renewed: none in IDLE (R251), E_BEGIN (R130), E_SYM (R131), D_BEGIN (R166), D_REC
(R167). -/
def Obligations.EngineTurnRunsTheEngine : Prop :=
  ∀ s : State,
    (s.nextTurn = .engine → step s = engineStep { s with turns := s.turns.tail }) ∧
    (s.phase = .idle → engineStep s = .next s) ∧
    (s.phase = .eBegin → engineStep s = engineEBegin { s with epoch := s.epoch + 1 }) ∧
    (s.phase = .eSym → engineStep s = engineESym { s with epoch := s.epoch + 1 }) ∧
    (s.phase = .dBegin → engineStep s = engineDBegin { s with epoch := s.epoch + 1 }) ∧
    (s.phase = .dRec → engineStep s = engineDRec { s with epoch := s.epoch + 1 })

/-- R74, R103, R104, R72: at the host's turn the step is the operation at the head of the host's program. A write access is
`hostAccess` of it after the turn and the operation are taken and the draws renewed; a read access, the same with the draws not
renewed. POLL is one STATUS read, the operation staying while BUSY is 1 and taken once it is 0. The second half of a COPYOUT pair
is the byte write of the byte the host last read, refused when it last read none. With no operation left nothing but the turn
is taken. (The host's program, the draws, its read data, POLL's form and the end it has seen: logs 2, 4, 15, 23, 27.) -/
def Obligations.HostTurnRunsTheOperation : Prop :=
  ∀ (s : State) (rest : List HostOp), s.nextTurn = .host →
    (s.host = [] → step s = .next { s with turns := s.turns.tail }) ∧
    (∀ x, s.host = .access x :: rest → x.isRead = false →
      step s = hostAccess x { s with turns := s.turns.tail, host := rest, epoch := s.epoch + 1 }) ∧
    (∀ x, s.host = .access x :: rest → x.isRead = true →
      step s = hostAccess x { s with turns := s.turns.tail, host := rest }) ∧
    (s.host = .poll :: rest → s.busy = true → step s = .next { s with
      turns := s.turns.tail, rdata := some (.word s.statusWord), doneUnseen := s.doneUnseen && !s.done }) ∧
    (s.host = .poll :: rest → s.busy = false → step s = .next { s with
      turns := s.turns.tail, host := rest, rdata := some (.word s.statusWord), doneUnseen := s.doneUnseen && !s.done }) ∧
    (∀ addr v, s.host = .writeRead addr :: rest → s.rdata = some (.byte v) →
      step s = hostAccess (.wr8 addr v) { s with turns := s.turns.tail, host := rest, epoch := s.epoch + 1 }) ∧
    (∀ addr, s.host = .writeRead addr :: rest → (∀ v, s.rdata ≠ some (.byte v)) → step s = .refused .noByteRead)

/-! ## The ENCODE steps -/

/-- R130: E_BEGIN completes when I = N, else takes CAPACITY_EXCEEDED with ERR_POS = I when K = DICT_CAP, else begins an empty
match at I. The ERR code is a free value when the host wrote IN while busy (R80; log 6). -/
def Obligations.RecordBeginStep : Prop :=
  ∀ s : State,
    (s.i = s.n → engineEBegin s = .next { s with
      phase := .idle, busy := false, done := true, err := if s.tainted then Config.drawErr s.epoch else .none }) ∧
    (s.i ≠ s.n → s.k.toNat = s.cfg.dictCap → engineEBegin s = .next { s with
      phase := .idle, busy := false, done := true
      err := if s.tainted then Config.drawErr s.epoch else .capacityExceeded
      errPos := s.i, errInfo := 0 }) ∧
    (s.i ≠ s.n → s.k.toNat ≠ s.cfg.dictCap → engineEBegin s = .next { s with c := 0, p := s.i, phase := .eSym })

/-- R131, R132, R191: E_SYM on a written symbol that is the last, or for which FIND answers 0, emits the record (C, s): its 3
bytes at OUT[O..O+3), O + 3, R + 1, entry K + 1 and K + 1; the cursor moves to P + 1 and the next record begins. -/
def Obligations.SymbolStepEmits : Prop :=
  ∀ (s : State) (sym : Byte), s.p.toNat < s.cfg.inMax → readByte s.inBuf s.p.toNat = some sym →
    s.p.toNat + 1 = s.n.toNat ∨ find s s.c sym = 0 → s.o.toNat + 3 ≤ s.cfg.outMax → s.k.toNat < s.cfg.dictCap →
    engineESym s = .next { s with
      outBuf := writeByte (writeByte (writeByte s.outBuf s.o.toNat (s.c.extractLsb' 8 8)) (s.o.toNat + 1)
        (s.c.extractLsb' 0 8)) (s.o.toNat + 2) sym
      o := s.o + 3, r := s.r + 1
      dict := Store.write s.dict (s.k.toNat + 1) ⟨s.c, sym⟩, k := s.k + 1
      i := s.p + 1, phase := .eBegin }

/-- R131: E_SYM on a written symbol that is not the last, and for which FIND answers an entry, extends the match by it. -/
def Obligations.SymbolStepExtends : Prop :=
  ∀ (s : State) (sym : Byte), s.p.toNat < s.cfg.inMax → readByte s.inBuf s.p.toNat = some sym →
    s.p.toNat + 1 ≠ s.n.toNat → find s s.c sym ≠ 0 →
    engineESym s = .next { s with c := find s s.c sym, p := s.p + 1 }

/-- R239, R131, R195: in E_SYM, and in D_REC with a record left, a read of an IN byte nobody has written is the model's fault
UnwrittenInput; in D_REC it comes before any error of the record (R240). -/
def Obligations.UnwrittenInputFaults : Prop :=
  ∀ s : State,
    (s.p.toNat < s.cfg.inMax → s.written s.p.toNat = false →
      engineESym s = .fault (.unwrittenInput s.p.toNat)) ∧
    (3 * s.r.toNat ≠ s.n.toNat → ∀ d, d < 3 → 3 * s.r.toNat + d < s.cfg.inMax →
      (∀ e, e < d → s.written (3 * s.r.toNat + e) = true) → s.written (3 * s.r.toNat + d) = false →
      engineDRec s = .fault (.unwrittenInput (3 * s.r.toNat + d)))

/-- R124: FIND answers the least valid index whose entry is (c, s), and 0 exactly when there is none. -/
def Obligations.FindIsTheLeastMatch : Prop :=
  ∀ (s : State) (node : Index) (sym : Byte),
    (∀ j, (find s node sym).toNat = j → j ≠ 0 →
      j ≤ s.k.toNat ∧ Store.read s.dict j = some ⟨node, sym⟩ ∧
      ∀ m, 1 ≤ m → m < j → Store.read s.dict m ≠ some ⟨node, sym⟩) ∧
    (find s node sym = 0 ↔ ∀ j, 1 ≤ j → j ≤ s.k.toNat → Store.read s.dict j ≠ some ⟨node, sym⟩)

/-- R28: STR of a valid entry is STR of its PARENT (empty for PARENT 0) followed by its SYM; it is never empty and has at most
`j` symbols. -/
def Obligations.StringOfAnEntry : Prop :=
  ∀ (s : State) (j : Nat) (e : DictEntry), s.DictOk → 1 ≤ j → j ≤ s.k.toNat → Store.read s.dict j = some e →
    ∃ base, (if e.parent = 0 then some [] else str s e.parent.toNat) = some base ∧
      str s j = some (base ++ [e.sym]) ∧ base.length + 1 ≤ j

/-! ## The DECODE steps -/

/-- R166: D_BEGIN takes CORRUPT_TRUNCATED with ERR_POS = N when N mod 3 ≠ 0, else passes to D_REC. -/
def Obligations.StreamLengthCheck : Prop :=
  ∀ s : State,
    (s.n.toNat % 3 ≠ 0 → engineDBegin s = .next { s with
      phase := .idle, busy := false, done := true
      err := if s.tainted then Config.drawErr s.epoch else .corruptTruncated
      errPos := s.n, errInfo := 0 }) ∧
    (s.n.toNat % 3 = 0 → engineDBegin s = .next { s with phase := .dRec })

/-- R168, R133: where no record of a DECODE is left, and where no source byte of an ENCODE is left, the step completes the
command: PHASE IDLE, STATUS 0x02 (BUSY 0, DONE 1, ERR 000), every counter, the error record, OUT and DICT as they were. -/
def Obligations.CompletionSetsDone : Prop :=
  ∀ s : State, s.tainted = false →
    (3 * s.r.toNat = s.n.toNat → ∃ t, engineDRec s = .next t ∧ t.statusWord = 0x02#32 ∧
      t = { s with phase := .idle, busy := false, done := true, err := .none }) ∧
    (s.i = s.n → ∃ t, engineEBegin s = .next t ∧ t.statusWord = 0x02#32 ∧
      t = { s with phase := .idle, busy := false, done := true, err := .none })

/-! ## Errors and flags -/

/-- R236, R231: the fault entry. PHASE IDLE, BUSY 0, DONE 1, the error's code in ERR, ERR_POS and ERR_INFO recorded; N, I, P, C,
K, R, O, DICT, OUT and everything else keep their values; STATUS reads the value R231 gives the error. -/
def Obligations.FaultEntryEffect : Prop :=
  ∀ (s : State) (e : ErrCode) (pos info : Word), s.tainted = false →
    s.raise e pos info =
      { s with phase := .idle, busy := false, done := true, err := e, errPos := pos, errInfo := info } ∧
    (s.raise .capacityExceeded pos info).statusWord = 0x06#32 ∧
    (s.raise .corruptTruncated pos info).statusWord = 0x0A#32 ∧
    (s.raise .corruptBadReference pos info).statusWord = 0x0E#32 ∧
    (s.raise .outputOverflow pos info).statusWord = 0x12#32

/-- R32: the fields of STATUS, BUSY and DONE never both 1, and the values STATUS can have. -/
def Obligations.StatusWordFields : Prop :=
  ∀ s : State, s.Inv →
    s.statusWord.getLsbD 0 = s.busy ∧ s.statusWord.getLsbD 1 = s.done ∧
    s.statusWord.extractLsb' 2 3 = errBits s.err ∧ s.statusWord.extractLsb' 5 27 = 0#27 ∧
    ¬ (s.busy = true ∧ s.done = true) ∧
    s.statusWord ∈ [0x00#32, 0x01#32, 0x02#32, 0x06#32, 0x0A#32, 0x0E#32, 0x12#32]

/-- R34, R35, R76: once DONE is 1, whatever the error code (000 after an error-free end), no step other than a command start and
reset changes DONE, ERR, ERR_POS, ERR_INFO, the counters the result registers show, or OUT; nor whether the results are draws,
once a STATUS read has shown DONE = 1 (log 27). Before that read a host write of IN, which R276 forbids there, may make the
results draws, and nothing else does: the step is then the host's, at the head of its program stands that byte write, or the
second half of a COPYOUT pair with the byte last read, and its address lies in IN (R80; the model's choice of logs 6 and 26). -/
def Obligations.ErrorIsSticky : Prop :=
  ∀ s t : State, s.Inv → s.done = true → s.nextTurn ≠ .reset → step s = .next t → t.busy = false →
    t.done = true ∧ t.err = s.err ∧ t.errPos = s.errPos ∧ t.errInfo = s.errInfo ∧ t.o = s.o ∧ t.r = s.r ∧ t.k = s.k ∧
    (∀ a, readByte t.outBuf a = readByte s.outBuf a) ∧
    (s.doneUnseen = false → t.tainted = s.tainted ∧ t.doneUnseen = false) ∧
    (t.tainted ≠ s.tainted → s.doneUnseen = true ∧ s.nextTurn = .host ∧
      ∃ addr v rest a,
        (s.host = .access (.wr8 addr v) :: rest ∨ (s.host = .writeRead addr :: rest ∧ s.rdata = some (.byte v))) ∧
        locate s.cfg addr = some (.inp, a) ∧ t = { s with
          turns := s.turns.tail, host := rest, epoch := s.epoch + 1, inBuf := writeByte s.inBuf a v, tainted := true })

/-! ## Host accesses -/

/-- R218, R31 to R41: what a host read of each register returns. CTRL, STATUS and IN_LEN read as they are in every state, and a
STATUS read that shows DONE = 1 is noted as the host's knowledge (R76; the model's choice of log 27). The result registers read
as they are when the results are specified: not busy (R77), the command's end seen by a STATUS read or no command started since
reset (R277), and no IN write where R276 forbids it (R80). -/
def Obligations.RegisterReadValues : Prop :=
  ∀ s : State,
    hostAccess (.rd32 (s.cfg.regBase + 0x00)) s = .next { s with rdata := some (.word 0#32) } ∧
    hostAccess (.rd32 (s.cfg.regBase + 0x04)) s = .next { s with
      rdata := some (.word s.statusWord), doneUnseen := s.doneUnseen && !s.done } ∧
    hostAccess (.rd32 (s.cfg.regBase + 0x08)) s = .next { s with rdata := some (.word s.inLen) } ∧
    (s.busy = false → s.doneUnseen = false → s.tainted = false →
      hostAccess (.rd32 (s.cfg.regBase + 0x0C)) s = .next { s with rdata := some (.word s.o) } ∧
      hostAccess (.rd32 (s.cfg.regBase + 0x10)) s = .next { s with rdata := some (.word s.r) } ∧
      hostAccess (.rd32 (s.cfg.regBase + 0x14)) s = .next { s with rdata := some (.word (s.k.zeroExtend 32)) } ∧
      hostAccess (.rd32 (s.cfg.regBase + 0x18)) s = .next { s with rdata := some (.word s.errPos) } ∧
      hostAccess (.rd32 (s.cfg.regBase + 0x1C)) s = .next { s with rdata := some (.word s.errInfo) })

/-- R77, R277: while busy STATUS reads 0x01, and from a command's start until a STATUS read shows DONE = 1 every result read is a
draw, bits 31:16 of DICT_COUNT being 0 in it too (R42; log 5); CTRL and IN_LEN read as ever. What the host has seen is the
model's record `doneUnseen` (log 27). -/
def Obligations.ReadsWhileBusy : Prop :=
  ∀ s : State, s.Inv →
    (s.busy = true → readReg s .status = 0x01#32 ∧ s.doneUnseen = true) ∧
    (s.busy = true ∨ s.doneUnseen = true →
      readReg s .ctrl = 0#32 ∧ readReg s .inLen = s.inLen ∧
      readReg s .outLen = Config.drawReg s.epoch 0x0C ∧ readReg s .recCount = Config.drawReg s.epoch 0x10 ∧
      (readReg s .dictCount).extractLsb' 16 16 = 0#16 ∧
      (readReg s .dictCount).extractLsb' 0 16 = (Config.drawReg s.epoch 0x14).extractLsb' 0 16 ∧
      readReg s .errPos = Config.drawReg s.epoch 0x18 ∧ readReg s .errInfo = Config.drawReg s.epoch 0x1C ∧
      ∀ a, hostReadOut s a = Config.drawOut s.epoch a)

/-- R72: a read that answers changes no state of LZ78E, only what the host holds (`rdata`) and has seen (`doneUnseen`, at a STATUS
read that shows DONE = 1; logs 15 and 27), and the same read again answers the same value and state. -/
def Obligations.ReadsHaveNoSideEffect : Prop :=
  ∀ (s t : State) (a : Access), a.isRead = true → hostAccess a s = .next t →
    t = { s with rdata := t.rdata, doneUnseen := t.doneUnseen } ∧ hostAccess a t = .next t ∧
    (a ≠ .rd32 (s.cfg.regBase + regOffset .status) ∨ s.done = false → t.doneUnseen = s.doneUnseen)

/-- R216: an IN_LEN write of v ≤ IN_MAX is stored when not busy and ignored while busy; one of v > IN_MAX is refused, busy or
not (that a busy engine does not come first is the model's choice, log 11). -/
def Obligations.InLenWrite : Prop :=
  ∀ (s : State) (v : Word),
    (v.toNat ≤ s.cfg.inMax → s.busy = false →
      hostAccess (.wr32 (s.cfg.regBase + regOffset .inLen) v) s = .next { s with inLen := v }) ∧
    (v.toNat ≤ s.cfg.inMax → s.busy = true →
      hostAccess (.wr32 (s.cfg.regBase + regOffset .inLen) v) s = .next s) ∧
    (s.cfg.inMax < v.toNat →
      hostAccess (.wr32 (s.cfg.regBase + regOffset .inLen) v) s = .refused (.inLenTooLarge v))

/-- R219: a byte write of IN[a] stores its value and marks it written, leaves every other IN byte, and a byte read of IN[a]
then returns it; an unwritten byte reads as a draw. While busy (R80), and until a STATUS read shows DONE = 1 (R276), the write also
marks the run (logs 6 and 26). -/
def Obligations.InByteWriteAndRead : Prop :=
  ∀ (s : State) (a : Nat) (v : Byte), s.cfg.valid → a < s.cfg.inMax →
    (∃ t, hostAccess (.wr8 (s.cfg.inBase + a) v) s = .next t ∧
      readByte t.inBuf a = some v ∧ t.written a = true ∧
      (∀ b, b ≠ a → readByte t.inBuf b = readByte s.inBuf b) ∧
      t = { s with inBuf := t.inBuf, tainted := s.tainted || (s.busy || s.doneUnseen) } ∧
      hostAccess (.rd8 (s.cfg.inBase + a)) t = .next { t with rdata := some (.byte v) }) ∧
    (s.written a = false →
      hostAccess (.rd8 (s.cfg.inBase + a)) s = .next { s with rdata := some (.byte (Config.drawIn s.epoch a)) })

/-- R220, R83: a byte read of OUT[a] returns the byte the command wrote when not busy (R77), the command's end seen by a STATUS
read (R277; log 27), no IN write where R276 forbids it (R80) and a < OUT_LEN; at or beyond OUT_LEN it is a draw. -/
def Obligations.OutByteRead : Prop :=
  ∀ (s : State) (a : Nat), s.Inv → a < s.cfg.outMax → s.busy = false → s.doneUnseen = false → s.tainted = false →
    (a < s.o.toNat → ∃ v, readByte s.outBuf a = some v ∧
      hostAccess (.rd8 (s.cfg.outBase + a)) s = .next { s with rdata := some (.byte v) }) ∧
    (s.o.toNat ≤ a →
      hostAccess (.rd8 (s.cfg.outBase + a)) s = .next { s with rdata := some (.byte (Config.drawOut s.epoch a)) })

/-- R69, R238: the host accesses that are refused: to REG, an access of another width, a 32-bit one at no register's address,
and a write to a read-only register; to IN and OUT, an access that is not 8 bits wide; a write to OUT. -/
def Obligations.ForbiddenAccessesAreRefused : Prop :=
  ∀ (s : State) (a : Nat) (v : Word) (b : Byte) (wd : OtherWidth), s.cfg.valid →
    (a < 32 → a % 4 ≠ 0 →
      hostAccess (.rd32 (s.cfg.regBase + a)) s = .refused (.misaligned (s.cfg.regBase + a)) ∧
      hostAccess (.wr32 (s.cfg.regBase + a) v) s = .refused (.misaligned (s.cfg.regBase + a))) ∧
    (a < 32 → hostAccess (.rd8 (s.cfg.regBase + a)) s = .refused (.wrongWidth (s.cfg.regBase + a)) ∧
      hostAccess (.wr8 (s.cfg.regBase + a) b) s = .refused (.wrongWidth (s.cfg.regBase + a)) ∧
      hostAccess (.rdOther wd (s.cfg.regBase + a)) s = .refused (.wrongWidth (s.cfg.regBase + a)) ∧
      hostAccess (.wrOther wd (s.cfg.regBase + a)) s = .refused (.wrongWidth (s.cfg.regBase + a))) ∧
    (∀ reg, reg ≠ .ctrl → reg ≠ .inLen →
      hostAccess (.wr32 (s.cfg.regBase + regOffset reg) v) s = .refused (.readOnlyRegister reg)) ∧
    (a < s.cfg.inMax → hostAccess (.rd32 (s.cfg.inBase + a)) s = .refused (.wrongWidth (s.cfg.inBase + a)) ∧
      hostAccess (.wr32 (s.cfg.inBase + a) v) s = .refused (.wrongWidth (s.cfg.inBase + a)) ∧
      hostAccess (.rdOther wd (s.cfg.inBase + a)) s = .refused (.wrongWidth (s.cfg.inBase + a)) ∧
      hostAccess (.wrOther wd (s.cfg.inBase + a)) s = .refused (.wrongWidth (s.cfg.inBase + a))) ∧
    (a < s.cfg.outMax → hostAccess (.wr8 (s.cfg.outBase + a) b) s = .refused (.outIsReadOnly (s.cfg.outBase + a)) ∧
      hostAccess (.rd32 (s.cfg.outBase + a)) s = .refused (.wrongWidth (s.cfg.outBase + a)) ∧
      hostAccess (.wr32 (s.cfg.outBase + a) v) s = .refused (.wrongWidth (s.cfg.outBase + a)) ∧
      hostAccess (.rdOther wd (s.cfg.outBase + a)) s = .refused (.wrongWidth (s.cfg.outBase + a)) ∧
      hostAccess (.wrOther wd (s.cfg.outBase + a)) s = .refused (.wrongWidth (s.cfg.outBase + a)))

/-- The model's choice (log 12; R66, R238, vectors H9 and H12): an access outside the three windows is refused, whatever its
kind. -/
def Obligations.AccessesOutsideTheWindowsAreRefused : Prop :=
  ∀ (s : State) (a : Nat) (v : Word) (b : Byte) (wd : OtherWidth),
    ¬ (s.cfg.regBase ≤ a ∧ a < s.cfg.regBase + 32) → ¬ (s.cfg.inBase ≤ a ∧ a < s.cfg.inBase + s.cfg.inMax) →
    ¬ (s.cfg.outBase ≤ a ∧ a < s.cfg.outBase + s.cfg.outMax) →
    ∀ x ∈ [Access.rd32 a, .wr32 a v, .rd8 a, .wr8 a b, .rdOther wd a, .wrOther wd a],
      hostAccess x s = .refused (.outsideWindows a)

/-- What every host access leaves unchanged: every byte of OUT, every dictionary entry, the parameters, the draws and the
turns; every byte of IN but the one a Wr8 stores to, at the offset `locate` gives for its address; every engine register, flag
and error field unless it is a write of CTRL; the mark of log 6 unless it is that or an IN write where R276 forbids it, the mark
of log 27 unless it is that or a STATUS read; IN_LEN unless it is a write of IN_LEN; the read data unless it is a read. -/
def Obligations.HostAccessFrame : Prop :=
  ∀ (s t : State) (x : Access), hostAccess x s = .next t →
    t.cfg = s.cfg ∧ t.epoch = s.epoch ∧ t.host = s.host ∧ t.turns = s.turns ∧
    (∀ a, readByte t.outBuf a = readByte s.outBuf a) ∧ (∀ j, Store.read t.dict j = Store.read s.dict j) ∧
    (∀ addr v off, x = .wr8 addr v → locate s.cfg addr = some (.inp, off) →
      ∀ a, a ≠ off → readByte t.inBuf a = readByte s.inBuf a) ∧
    ((∀ addr v, x ≠ .wr8 addr v) → ∀ a, readByte t.inBuf a = readByte s.inBuf a) ∧
    ((∀ v, x ≠ .wr32 (s.cfg.regBase + regOffset .ctrl) v) →
      t.phase = s.phase ∧ t.n = s.n ∧ t.i = s.i ∧ t.p = s.p ∧ t.c = s.c ∧ t.k = s.k ∧ t.r = s.r ∧ t.o = s.o ∧
      t.busy = s.busy ∧ t.done = s.done ∧ t.err = s.err ∧ t.errPos = s.errPos ∧ t.errInfo = s.errInfo ∧
      ((∀ addr v, x ≠ .wr8 addr v) ∨ s.busy = false ∧ s.doneUnseen = false → t.tainted = s.tainted) ∧
      (x ≠ .rd32 (s.cfg.regBase + regOffset .status) → t.doneUnseen = s.doneUnseen)) ∧
    ((∀ v, x ≠ .wr32 (s.cfg.regBase + regOffset .inLen) v) → t.inLen = s.inLen) ∧
    (x.isRead = false → t.rdata = s.rdata)

/-- The model's marking of R80 and R276 (logs 6 and 26): after a host write of IN while busy, or until a STATUS read shows
DONE = 1, the command's results are draws, and its STATUS.ERR at completion is one too, when the write comes before that (R80;
an ended command keeps its ERR, R35). Of DICT_COUNT the draw is bits 15:0, bits 31:16 being 0 (R42; log 5). -/
def Obligations.InWriteWhileBusyMakesResultsDraws : Prop :=
  (∀ (s : State) (a : Nat) (v : Byte), s.cfg.valid → s.busy = true ∨ s.doneUnseen = true → a < s.cfg.inMax →
    ∃ t, hostAccess (.wr8 (s.cfg.inBase + a) v) s = .next t ∧ t.tainted = true ∧ t.err = s.err) ∧
  (∀ s t : State, s.tainted = true → engineStep s = .next t →
    t.tainted = true ∧ (s.phase ≠ .idle → t.phase = .idle → t.err = Config.drawErr t.epoch)) ∧
  (∀ s : State, s.tainted = true →
    readReg s .outLen = Config.drawReg s.epoch 0x0C ∧ readReg s .recCount = Config.drawReg s.epoch 0x10 ∧
    readReg s .errPos = Config.drawReg s.epoch 0x18 ∧ readReg s .errInfo = Config.drawReg s.epoch 0x1C ∧
    (readReg s .dictCount).extractLsb' 0 16 = (Config.drawReg s.epoch 0x14).extractLsb' 0 16 ∧
    (readReg s .dictCount).extractLsb' 16 16 = 0#16 ∧
    ∀ a, hostReadOut s a = Config.drawOut s.epoch a)

/-! ## Reset -/

/-- R47, R270, R272: a step that asserts reset, busy or not, leaves PHASE IDLE, STATUS 0x00, every engine register and host
register 0, and no IN byte written; so does the model's reset state. -/
def Obligations.ResetLeaves : Prop :=
  (∀ s : State, s.nextTurn = .reset → ∃ t, step s = .next t ∧ t.cfg = s.cfg ∧
    t.phase = .idle ∧ t.n = 0 ∧ t.i = 0 ∧ t.p = 0 ∧ t.r = 0 ∧ t.o = 0 ∧ t.c = 0 ∧ t.k = 0 ∧
    (∀ reg, readReg t reg = 0#32) ∧ ∀ a, t.written a = false) ∧
  State.reset.phase = .idle ∧ State.reset.n = 0 ∧ State.reset.i = 0 ∧ State.reset.p = 0 ∧ State.reset.r = 0 ∧
  State.reset.o = 0 ∧ State.reset.c = 0 ∧ State.reset.k = 0 ∧
  (∀ reg, readReg State.reset reg = 0#32) ∧ ∀ a, State.reset.written a = false

/-- R251, R271: an idle engine takes no step, so that nothing but the host or reset changes an idle machine. -/
def Obligations.IdleEngineTakesNoStep : Prop :=
  ∀ s : State, s.phase = .idle → engineStep s = .next s ∧
    (s.nextTurn = .engine → step s = .next { s with turns := s.turns.tail }) ∧
    (s.nextTurn = .host → s.host = [] → step s = .next { s with turns := s.turns.tail })

/-! ## Whole-machine rules -/

/-- The invariant holds right after reset, for every valid choice of the parameters. -/
def Obligations.InvariantHoldsAtReset : Prop :=
  ∀ c : Params, c.valid → (State.resetWith c).Inv

/-- Every step keeps the invariant, whoever takes it: canonical memories within their spaces, a dictionary whose every valid
entry is stored with an earlier PARENT, BUSY = 1 exactly when PHASE ≠ IDLE, and the ranges of R23. -/
def Obligations.StepKeepsTheInvariant : Prop :=
  ∀ s t : State, s.Inv → step s = .next t → t.Inv

/-- R20: no step changes the parameters of the instance. -/
def Obligations.ParametersNeverChange : Prop :=
  ∀ s t : State, step s = .next t → t.cfg = s.cfg

/-- R15, R25, R29, R62, R63, R237: what an engine step leaves unchanged: IN, IN_LEN, N and the host's side; every OUT byte
below O or at or beyond the new O; every dictionary entry up to K or above the new K. O, K and R never fall. -/
def Obligations.EngineStepFrame : Prop :=
  ∀ s t : State, s.Inv → engineStep s = .next t →
    t.cfg = s.cfg ∧ t.inLen = s.inLen ∧ t.n = s.n ∧ t.host = s.host ∧ t.turns = s.turns ∧ t.rdata = s.rdata ∧
    t.tainted = s.tainted ∧ t.doneUnseen = s.doneUnseen ∧ (∀ a, readByte t.inBuf a = readByte s.inBuf a) ∧
    (∀ a, a < s.o.toNat ∨ t.o.toNat ≤ a → readByte t.outBuf a = readByte s.outBuf a) ∧
    (∀ j, j ≤ s.k.toNat ∨ t.k.toNat < j → Store.read t.dict j = Store.read s.dict j) ∧
    s.o.toNat ≤ t.o.toNat ∧ s.k.toNat ≤ t.k.toNat ∧ s.r.toNat ≤ t.r.toNat

/-- R239, R163, R65: on this hardware (DICT_CAP = 65535) the only fault a step of a run can end in is UnwrittenInput, of a byte
below N; no step of the engine is refused. -/
def Obligations.OnlyUnwrittenInputFaults : Prop :=
  ∀ s : State, s.Inv → s.cfg.dictCap = 65535 →
    (∀ f, step s = .fault f → ∃ a, f = .unwrittenInput a ∧ a < s.n.toNat ∧ s.written a = false) ∧
    (∀ q, step s = .refused q → s.nextTurn = .host)

/-- R84: isolation. Two states at the same point of the same command take the same engine step, whatever older dictionary
entries, IN bytes at or beyond N, OUT bytes at or beyond O, IN_LEN and draws they hold; and a start brings two states that
agree on the parameters, IN_LEN and IN below it to the same point. -/
def Obligations.CommandsAreIsolated : Prop :=
  (∀ s s' t : State, s.Inv → s'.Inv → s.sameCommand s' → engineStep s = .next t →
    ∃ t', engineStep s' = .next t' ∧ t.sameCommand t') ∧
  (∀ (s s' : State) (ph : Phase), s.cfg = s'.cfg → s.inLen = s'.inLen →
    (∀ a, a < s.inLen.toNat → readByte s.inBuf a = readByte s'.inBuf a) →
    (s.start ph).sameCommand (s'.start ph))

/-- R283: every running command whose input is written ends, within 2·N + 1 engine steps for ENCODE and N/3 + 2 for DECODE, on
this hardware (DICT_CAP = 65535). -/
def Obligations.EveryCommandEnds : Prop :=
  ∀ s : State, s.Inv → s.cfg.dictCap = 65535 → s.busy = true → (∀ a, a < s.n.toNat → s.written a = true) →
    ∃ m t, engineRun m s = .next t ∧ t.phase = .idle ∧ t.busy = false ∧ t.done = true ∧
      (s.phase = .eBegin ∨ s.phase = .eSym → m ≤ 2 * s.n.toNat + 1) ∧
      (s.phase = .dBegin ∨ s.phase = .dRec → m ≤ s.n.toNat / 3 + 2)

/-! ## The functions and the steps -/

/-- R192: frame of the empty sequence, of one more record, and its length. -/
def Obligations.FrameEquations : Prop :=
  Codec.frame [] = [] ∧
  ∀ (rs : List Codec.Record) (ref : Index) (sym : Byte),
    Codec.frame (rs ++ [⟨ref.toNat, sym⟩]) = Codec.frame rs ++ [ref.extractLsb' 8 8, ref.extractLsb' 0 8, sym] ∧
    (Codec.frame rs).length = 3 * rs.length

/-- R191: FRAME(ref, sym) at o puts ref[15:8], ref[7:0] and sym at o, o + 1 and o + 2, and nothing elsewhere. -/
def Obligations.FrameWritesThreeBytes : Prop :=
  ∀ (m : Memory) (o : Nat) (ref : Index) (sym : Byte),
    readByte (writeBytes m o (frameBytes ref sym)) o = some (ref.extractLsb' 8 8) ∧
    readByte (writeBytes m o (frameBytes ref sym)) (o + 1) = some (ref.extractLsb' 0 8) ∧
    readByte (writeBytes m o (frameBytes ref sym)) (o + 2) = some sym ∧
    ∀ a, a < o ∨ o + 3 ≤ a → readByte (writeBytes m o (frameBytes ref sym)) a = readByte m a

/-- R196: FRM and DES are inverse: deframe of frame for references of 16 bits, frame of deframe for lengths divisible by 3. -/
def Obligations.FrameAndDeframeAreInverse : Prop :=
  (∀ rs : List Codec.Record, (∀ x : Codec.Record, x ∈ rs → x.ref ≤ 65535) → Codec.deframe (Codec.frame rs) = .ok rs) ∧
  (∀ w : List Byte, w.length % 3 = 0 → ∃ rs, Codec.deframe w = .ok rs ∧ (∀ x : Codec.Record, x ∈ rs → x.ref ≤ 65535) ∧
    rs.length = w.length / 3 ∧ Codec.frame rs = w)

/-- R96, R193: a stream whose length is no multiple of 3 is CorruptStream (truncated), and the empty stream is valid. -/
def Obligations.DeframeRejectsBadLength : Prop :=
  Codec.deframe [] = .ok [] ∧
  ∀ w : List Byte, Codec.deframe w = .error .truncated ↔ w.length % 3 ≠ 0

/-- R98, R134: the encoder's j-th record refers to an entry before it, there are at most as many records as symbols, and the
entry lengths add up to the source. -/
def Obligations.EncoderRecordBounds : Prop :=
  ∀ src : List Byte,
    (∀ (j : Nat) (x : Codec.Record), (Codec.encodeInf src)[j]? = some x → x.ref ≤ j) ∧
    (Codec.encodeInf src).length ≤ src.length ∧
    ((Codec.encodeEntries src).map (fun re => re.2.length)).sum = src.length

/-- R139, R121, R122, R127: one turn of encode_inf. The entry is the shortest non-empty prefix of the rest that is no key, or the
whole rest when every shorter prefix is one; every shorter prefix of it is a key, and it is a key itself only at the end. -/
def Obligations.EncoderMatchIsGreedy : Prop :=
  ∀ (d : Codec.KeyMap) (rest : List Byte), rest ≠ [] →
    ∃ l, Codec.matchLength d rest rest.length 1 = l ∧ 1 ≤ l ∧ l ≤ rest.length ∧
      (∀ m, 1 ≤ m → m < l → Codec.isKey d (rest.take m) = true) ∧
      (l < rest.length → Codec.isKey d (rest.take l) = false)

/-- R170: the round-trip law, decode(encode(x)) = x wherever encode answers records. -/
def Obligations.RoundTripLaw : Prop :=
  ∀ (cap : Nat) (x : List Byte) (rs : List Codec.Record), Codec.encode cap x = .records rs → Codec.decode rs = .ok x

/-- R136: an ENCODE of the empty input completes at its first E_BEGIN step with STATUS 0x02 and all counts 0, whatever IN
holds. -/
def Obligations.EmptyInputEncodes : Prop :=
  ∀ s : State, s.busy = false → s.inLen = 0 → ∃ t, engineStep (s.start .eBegin) = .next t ∧
    t.phase = .idle ∧ t.statusWord = 0x02#32 ∧ t.o = 0 ∧ t.r = 0 ∧ t.k = 0 ∧ t.errPos = 0 ∧ t.errInfo = 0

/-- R135, R129, R232: the ENCODE steps compute encode. With IN[0..N) = x written, the run ends after N + R + 1 engine steps with
STATUS 0x02 and the framed records, or, when encode answers CapacityExceeded(pos), after pos + DICT_CAP + 1 steps with STATUS
0x06, ERR_POS = pos and the first DICT_CAP records framed; before that it is busy. -/
def Obligations.EncodeStepsComputeEncode : Prop :=
  ∀ (s : State) (x : List Byte), s.Inv → s.busy = false → s.inLen.toNat = x.length → s.inHolds x →
    (∀ rs, Codec.encode s.cfg.dictCap x = .records rs →
      (∃ t, engineRun (x.length + rs.length + 1) (s.start .eBegin) = .next t ∧
        t.phase = .idle ∧ t.statusWord = 0x02#32 ∧ t.r.toNat = rs.length ∧ t.k.toNat = rs.length ∧
        t.o.toNat = 3 * rs.length ∧ t.outHolds (Codec.frame rs) ∧ t.errPos = 0 ∧ t.errInfo = 0) ∧
      ∀ m, m < x.length + rs.length + 1 → ∃ u, engineRun m (s.start .eBegin) = .next u ∧ u.busy = true) ∧
    (∀ pos, Codec.encode s.cfg.dictCap x = .capacityExceeded pos →
      (∃ t, engineRun (pos + s.cfg.dictCap + 1) (s.start .eBegin) = .next t ∧
        t.phase = .idle ∧ t.statusWord = 0x06#32 ∧ t.r.toNat = s.cfg.dictCap ∧ t.k.toNat = s.cfg.dictCap ∧
        t.o.toNat = 3 * s.cfg.dictCap ∧ t.outHolds (Codec.frame ((Codec.encodeInf x).take s.cfg.dictCap)) ∧
        t.errPos.toNat = pos ∧ t.errInfo = 0) ∧
      ∀ m, m < pos + s.cfg.dictCap + 1 → ∃ u, engineRun m (s.start .eBegin) = .next u ∧ u.busy = true)

/-- R171, on this hardware (DICT_CAP = 65535): the DECODE steps compute decode ∘ deframe. With IN[0..N) = w written: a bad length
ends the run in one step with STATUS 0x0A; else a decoded output that fits ends it after N/3 + 2 steps with STATUS 0x02; else a
bad reference at record j, the output before it fitting, ends it with STATUS 0x0E; else the first record whose output passes
OUT_MAX ends it with STATUS 0x12. -/
def Obligations.DecodeStepsComputeDecode : Prop :=
  ∀ (s : State) (w : List Byte), s.Inv → s.cfg.dictCap = 65535 → s.busy = false → s.inLen.toNat = w.length →
    s.inHolds w →
    (Codec.deframe w = .error .truncated → ∃ t, engineRun 1 (s.start .dBegin) = .next t ∧
      t.phase = .idle ∧ t.statusWord = 0x0A#32 ∧ t.errPos.toNat = w.length ∧ t.errInfo = 0 ∧ t.o = 0 ∧ t.r = 0 ∧ t.k = 0) ∧
    ∀ rs, Codec.deframe w = .ok rs →
      (∀ out, Codec.decode rs = .ok out → out.length ≤ s.cfg.outMax →
        ∃ t, engineRun (rs.length + 2) (s.start .dBegin) = .next t ∧ t.phase = .idle ∧ t.statusWord = 0x02#32 ∧
          t.r.toNat = rs.length ∧ t.k.toNat = min rs.length 65535 ∧ t.o.toNat = out.length ∧ t.outHolds out ∧
          t.errPos = 0 ∧ t.errInfo = 0) ∧
      (∀ j ref out, Codec.decode rs = .error (.badReference j ref) → Codec.decode (rs.take (j - 1)) = .ok out →
        out.length ≤ s.cfg.outMax →
        ∃ t, engineRun (j + 1) (s.start .dBegin) = .next t ∧ t.phase = .idle ∧ t.statusWord = 0x0E#32 ∧
          t.errPos.toNat = 3 * (j - 1) ∧ t.errInfo.toNat = ref ∧ t.r.toNat = j - 1 ∧
          t.k.toNat = min (j - 1) 65535 ∧ t.o.toNat = out.length ∧ t.outHolds out) ∧
      (∀ m out out', Codec.decode (rs.take m) = .ok out → out.length ≤ s.cfg.outMax →
        Codec.decode (rs.take (m + 1)) = .ok out' → s.cfg.outMax < out'.length →
        ∃ t, engineRun (m + 2) (s.start .dBegin) = .next t ∧ t.phase = .idle ∧ t.statusWord = 0x12#32 ∧
          t.errPos.toNat = 3 * m ∧ t.errInfo = 0 ∧ t.r.toNat = m ∧ t.o.toNat = out.length ∧ t.outHolds out)

/-- R170 in the hardware, on this hardware (DICT_CAP = 65535): when ENCODE of x ends with records whose wire stream fits IN, a
DECODE from any later idle state whose IN holds that stream ends with STATUS 0x02 and OUT[0..len(x)) = x. -/
def Obligations.HardwareRoundTrip : Prop :=
  ∀ (s : State) (x : List Byte) (rs : List Codec.Record), s.Inv → s.cfg.dictCap = 65535 → s.busy = false →
    s.inLen.toNat = x.length → s.inHolds x → Codec.encode 65535 x = .records rs →
    (∃ m t, engineRun m (s.start .eBegin) = .next t ∧ t.statusWord = 0x02#32 ∧ t.outHolds (Codec.frame rs) ∧
      t.o.toNat = (Codec.frame rs).length) ∧
    ∀ u : State, u.Inv → u.cfg = s.cfg → u.busy = false → u.inLen.toNat = (Codec.frame rs).length →
      u.inHolds (Codec.frame rs) →
      ∃ m t, engineRun m (u.start .dBegin) = .next t ∧ t.statusWord = 0x02#32 ∧ t.o.toNat = x.length ∧ t.outHolds x
end

