-- ==== Sys2Proof/Laws/State.lean ====
section
/-! SUPPORT. One lemma per field per named update of the state, so that no proof unfolds a record update. -/

namespace Sys2Proof.Machine

variable (s : State)

@[simp] theorem State.tick_cfg : (s.tick).cfg = s.cfg := rfl
@[simp] theorem State.tick_phase : (s.tick).phase = s.phase := rfl
@[simp] theorem State.tick_n : (s.tick).n = s.n := rfl
@[simp] theorem State.tick_i : (s.tick).i = s.i := rfl
@[simp] theorem State.tick_p : (s.tick).p = s.p := rfl
@[simp] theorem State.tick_c : (s.tick).c = s.c := rfl
@[simp] theorem State.tick_k : (s.tick).k = s.k := rfl
@[simp] theorem State.tick_r : (s.tick).r = s.r := rfl
@[simp] theorem State.tick_o : (s.tick).o = s.o := rfl
@[simp] theorem State.tick_dict : (s.tick).dict = s.dict := rfl
@[simp] theorem State.tick_busy : (s.tick).busy = s.busy := rfl
@[simp] theorem State.tick_done : (s.tick).done = s.done := rfl
@[simp] theorem State.tick_err : (s.tick).err = s.err := rfl
@[simp] theorem State.tick_inLen : (s.tick).inLen = s.inLen := rfl
@[simp] theorem State.tick_errPos : (s.tick).errPos = s.errPos := rfl
@[simp] theorem State.tick_errInfo : (s.tick).errInfo = s.errInfo := rfl
@[simp] theorem State.tick_inBuf : (s.tick).inBuf = s.inBuf := rfl
@[simp] theorem State.tick_outBuf : (s.tick).outBuf = s.outBuf := rfl
@[simp] theorem State.tick_tainted : (s.tick).tainted = s.tainted := rfl
@[simp] theorem State.tick_doneUnseen : (s.tick).doneUnseen = s.doneUnseen := rfl
@[simp] theorem State.tick_epoch : (s.tick).epoch = s.epoch + 1 := rfl
@[simp] theorem State.tick_host : (s.tick).host = s.host := rfl
@[simp] theorem State.tick_turns : (s.tick).turns = s.turns := rfl
@[simp] theorem State.tick_rdata : (s.tick).rdata = s.rdata := rfl

@[simp] theorem State.popTurn_cfg : (s.popTurn).cfg = s.cfg := rfl
@[simp] theorem State.popTurn_phase : (s.popTurn).phase = s.phase := rfl
@[simp] theorem State.popTurn_n : (s.popTurn).n = s.n := rfl
@[simp] theorem State.popTurn_i : (s.popTurn).i = s.i := rfl
@[simp] theorem State.popTurn_p : (s.popTurn).p = s.p := rfl
@[simp] theorem State.popTurn_c : (s.popTurn).c = s.c := rfl
@[simp] theorem State.popTurn_k : (s.popTurn).k = s.k := rfl
@[simp] theorem State.popTurn_r : (s.popTurn).r = s.r := rfl
@[simp] theorem State.popTurn_o : (s.popTurn).o = s.o := rfl
@[simp] theorem State.popTurn_dict : (s.popTurn).dict = s.dict := rfl
@[simp] theorem State.popTurn_busy : (s.popTurn).busy = s.busy := rfl
@[simp] theorem State.popTurn_done : (s.popTurn).done = s.done := rfl
@[simp] theorem State.popTurn_err : (s.popTurn).err = s.err := rfl
@[simp] theorem State.popTurn_inLen : (s.popTurn).inLen = s.inLen := rfl
@[simp] theorem State.popTurn_errPos : (s.popTurn).errPos = s.errPos := rfl
@[simp] theorem State.popTurn_errInfo : (s.popTurn).errInfo = s.errInfo := rfl
@[simp] theorem State.popTurn_inBuf : (s.popTurn).inBuf = s.inBuf := rfl
@[simp] theorem State.popTurn_outBuf : (s.popTurn).outBuf = s.outBuf := rfl
@[simp] theorem State.popTurn_tainted : (s.popTurn).tainted = s.tainted := rfl
@[simp] theorem State.popTurn_doneUnseen : (s.popTurn).doneUnseen = s.doneUnseen := rfl
@[simp] theorem State.popTurn_epoch : (s.popTurn).epoch = s.epoch := rfl
@[simp] theorem State.popTurn_host : (s.popTurn).host = s.host := rfl
@[simp] theorem State.popTurn_turns : (s.popTurn).turns = s.turns.tail := rfl
@[simp] theorem State.popTurn_rdata : (s.popTurn).rdata = s.rdata := rfl

@[simp] theorem State.popHost_cfg : (s.popHost).cfg = s.cfg := rfl
@[simp] theorem State.popHost_phase : (s.popHost).phase = s.phase := rfl
@[simp] theorem State.popHost_n : (s.popHost).n = s.n := rfl
@[simp] theorem State.popHost_i : (s.popHost).i = s.i := rfl
@[simp] theorem State.popHost_p : (s.popHost).p = s.p := rfl
@[simp] theorem State.popHost_c : (s.popHost).c = s.c := rfl
@[simp] theorem State.popHost_k : (s.popHost).k = s.k := rfl
@[simp] theorem State.popHost_r : (s.popHost).r = s.r := rfl
@[simp] theorem State.popHost_o : (s.popHost).o = s.o := rfl
@[simp] theorem State.popHost_dict : (s.popHost).dict = s.dict := rfl
@[simp] theorem State.popHost_busy : (s.popHost).busy = s.busy := rfl
@[simp] theorem State.popHost_done : (s.popHost).done = s.done := rfl
@[simp] theorem State.popHost_err : (s.popHost).err = s.err := rfl
@[simp] theorem State.popHost_inLen : (s.popHost).inLen = s.inLen := rfl
@[simp] theorem State.popHost_errPos : (s.popHost).errPos = s.errPos := rfl
@[simp] theorem State.popHost_errInfo : (s.popHost).errInfo = s.errInfo := rfl
@[simp] theorem State.popHost_inBuf : (s.popHost).inBuf = s.inBuf := rfl
@[simp] theorem State.popHost_outBuf : (s.popHost).outBuf = s.outBuf := rfl
@[simp] theorem State.popHost_tainted : (s.popHost).tainted = s.tainted := rfl
@[simp] theorem State.popHost_doneUnseen : (s.popHost).doneUnseen = s.doneUnseen := rfl
@[simp] theorem State.popHost_epoch : (s.popHost).epoch = s.epoch := rfl
@[simp] theorem State.popHost_host : (s.popHost).host = s.host.tail := rfl
@[simp] theorem State.popHost_turns : (s.popHost).turns = s.turns := rfl
@[simp] theorem State.popHost_rdata : (s.popHost).rdata = s.rdata := rfl

@[simp] theorem State.respond_cfg (d : BusData) : (s.respond d).cfg = s.cfg := rfl
@[simp] theorem State.respond_phase (d : BusData) : (s.respond d).phase = s.phase := rfl
@[simp] theorem State.respond_n (d : BusData) : (s.respond d).n = s.n := rfl
@[simp] theorem State.respond_i (d : BusData) : (s.respond d).i = s.i := rfl
@[simp] theorem State.respond_p (d : BusData) : (s.respond d).p = s.p := rfl
@[simp] theorem State.respond_c (d : BusData) : (s.respond d).c = s.c := rfl
@[simp] theorem State.respond_k (d : BusData) : (s.respond d).k = s.k := rfl
@[simp] theorem State.respond_r (d : BusData) : (s.respond d).r = s.r := rfl
@[simp] theorem State.respond_o (d : BusData) : (s.respond d).o = s.o := rfl
@[simp] theorem State.respond_dict (d : BusData) : (s.respond d).dict = s.dict := rfl
@[simp] theorem State.respond_busy (d : BusData) : (s.respond d).busy = s.busy := rfl
@[simp] theorem State.respond_done (d : BusData) : (s.respond d).done = s.done := rfl
@[simp] theorem State.respond_err (d : BusData) : (s.respond d).err = s.err := rfl
@[simp] theorem State.respond_inLen (d : BusData) : (s.respond d).inLen = s.inLen := rfl
@[simp] theorem State.respond_errPos (d : BusData) : (s.respond d).errPos = s.errPos := rfl
@[simp] theorem State.respond_errInfo (d : BusData) : (s.respond d).errInfo = s.errInfo := rfl
@[simp] theorem State.respond_inBuf (d : BusData) : (s.respond d).inBuf = s.inBuf := rfl
@[simp] theorem State.respond_outBuf (d : BusData) : (s.respond d).outBuf = s.outBuf := rfl
@[simp] theorem State.respond_tainted (d : BusData) : (s.respond d).tainted = s.tainted := rfl
@[simp] theorem State.respond_doneUnseen (d : BusData) : (s.respond d).doneUnseen = s.doneUnseen := rfl
@[simp] theorem State.respond_epoch (d : BusData) : (s.respond d).epoch = s.epoch := rfl
@[simp] theorem State.respond_host (d : BusData) : (s.respond d).host = s.host := rfl
@[simp] theorem State.respond_turns (d : BusData) : (s.respond d).turns = s.turns := rfl
@[simp] theorem State.respond_rdata (d : BusData) : (s.respond d).rdata = some d := rfl

@[simp] theorem State.respondReg_cfg (reg : HostReg) : (s.respondReg reg).cfg = s.cfg := rfl
@[simp] theorem State.respondReg_phase (reg : HostReg) : (s.respondReg reg).phase = s.phase := rfl
@[simp] theorem State.respondReg_n (reg : HostReg) : (s.respondReg reg).n = s.n := rfl
@[simp] theorem State.respondReg_i (reg : HostReg) : (s.respondReg reg).i = s.i := rfl
@[simp] theorem State.respondReg_p (reg : HostReg) : (s.respondReg reg).p = s.p := rfl
@[simp] theorem State.respondReg_c (reg : HostReg) : (s.respondReg reg).c = s.c := rfl
@[simp] theorem State.respondReg_k (reg : HostReg) : (s.respondReg reg).k = s.k := rfl
@[simp] theorem State.respondReg_r (reg : HostReg) : (s.respondReg reg).r = s.r := rfl
@[simp] theorem State.respondReg_o (reg : HostReg) : (s.respondReg reg).o = s.o := rfl
@[simp] theorem State.respondReg_dict (reg : HostReg) : (s.respondReg reg).dict = s.dict := rfl
@[simp] theorem State.respondReg_busy (reg : HostReg) : (s.respondReg reg).busy = s.busy := rfl
@[simp] theorem State.respondReg_done (reg : HostReg) : (s.respondReg reg).done = s.done := rfl
@[simp] theorem State.respondReg_err (reg : HostReg) : (s.respondReg reg).err = s.err := rfl
@[simp] theorem State.respondReg_inLen (reg : HostReg) : (s.respondReg reg).inLen = s.inLen := rfl
@[simp] theorem State.respondReg_errPos (reg : HostReg) : (s.respondReg reg).errPos = s.errPos := rfl
@[simp] theorem State.respondReg_errInfo (reg : HostReg) : (s.respondReg reg).errInfo = s.errInfo := rfl
@[simp] theorem State.respondReg_inBuf (reg : HostReg) : (s.respondReg reg).inBuf = s.inBuf := rfl
@[simp] theorem State.respondReg_outBuf (reg : HostReg) : (s.respondReg reg).outBuf = s.outBuf := rfl
@[simp] theorem State.respondReg_tainted (reg : HostReg) : (s.respondReg reg).tainted = s.tainted := rfl
@[simp] theorem State.respondReg_doneUnseen (reg : HostReg) : (s.respondReg reg).doneUnseen = (s.doneUnseen && !s.showsDone reg) := rfl
@[simp] theorem State.respondReg_epoch (reg : HostReg) : (s.respondReg reg).epoch = s.epoch := rfl
@[simp] theorem State.respondReg_host (reg : HostReg) : (s.respondReg reg).host = s.host := rfl
@[simp] theorem State.respondReg_turns (reg : HostReg) : (s.respondReg reg).turns = s.turns := rfl
@[simp] theorem State.respondReg_rdata (reg : HostReg) : (s.respondReg reg).rdata = some (.word (readReg s reg)) := rfl

@[simp] theorem State.flagsAtStart_cfg : (s.flagsAtStart).cfg = s.cfg := rfl
@[simp] theorem State.flagsAtStart_phase : (s.flagsAtStart).phase = s.phase := rfl
@[simp] theorem State.flagsAtStart_n : (s.flagsAtStart).n = s.n := rfl
@[simp] theorem State.flagsAtStart_i : (s.flagsAtStart).i = s.i := rfl
@[simp] theorem State.flagsAtStart_p : (s.flagsAtStart).p = s.p := rfl
@[simp] theorem State.flagsAtStart_c : (s.flagsAtStart).c = s.c := rfl
@[simp] theorem State.flagsAtStart_k : (s.flagsAtStart).k = s.k := rfl
@[simp] theorem State.flagsAtStart_r : (s.flagsAtStart).r = s.r := rfl
@[simp] theorem State.flagsAtStart_o : (s.flagsAtStart).o = s.o := rfl
@[simp] theorem State.flagsAtStart_dict : (s.flagsAtStart).dict = s.dict := rfl
@[simp] theorem State.flagsAtStart_busy : (s.flagsAtStart).busy = true := rfl
@[simp] theorem State.flagsAtStart_done : (s.flagsAtStart).done = false := rfl
@[simp] theorem State.flagsAtStart_err : (s.flagsAtStart).err = .none := rfl
@[simp] theorem State.flagsAtStart_inLen : (s.flagsAtStart).inLen = s.inLen := rfl
@[simp] theorem State.flagsAtStart_errPos : (s.flagsAtStart).errPos = s.errPos := rfl
@[simp] theorem State.flagsAtStart_errInfo : (s.flagsAtStart).errInfo = s.errInfo := rfl
@[simp] theorem State.flagsAtStart_inBuf : (s.flagsAtStart).inBuf = s.inBuf := rfl
@[simp] theorem State.flagsAtStart_outBuf : (s.flagsAtStart).outBuf = s.outBuf := rfl
@[simp] theorem State.flagsAtStart_tainted : (s.flagsAtStart).tainted = s.tainted := rfl
@[simp] theorem State.flagsAtStart_doneUnseen : (s.flagsAtStart).doneUnseen = s.doneUnseen := rfl
@[simp] theorem State.flagsAtStart_epoch : (s.flagsAtStart).epoch = s.epoch := rfl
@[simp] theorem State.flagsAtStart_host : (s.flagsAtStart).host = s.host := rfl
@[simp] theorem State.flagsAtStart_turns : (s.flagsAtStart).turns = s.turns := rfl
@[simp] theorem State.flagsAtStart_rdata : (s.flagsAtStart).rdata = s.rdata := rfl

@[simp] theorem State.flagsAtEnd_cfg (e : ErrCode) : (s.flagsAtEnd e).cfg = s.cfg := rfl
@[simp] theorem State.flagsAtEnd_phase (e : ErrCode) : (s.flagsAtEnd e).phase = s.phase := rfl
@[simp] theorem State.flagsAtEnd_n (e : ErrCode) : (s.flagsAtEnd e).n = s.n := rfl
@[simp] theorem State.flagsAtEnd_i (e : ErrCode) : (s.flagsAtEnd e).i = s.i := rfl
@[simp] theorem State.flagsAtEnd_p (e : ErrCode) : (s.flagsAtEnd e).p = s.p := rfl
@[simp] theorem State.flagsAtEnd_c (e : ErrCode) : (s.flagsAtEnd e).c = s.c := rfl
@[simp] theorem State.flagsAtEnd_k (e : ErrCode) : (s.flagsAtEnd e).k = s.k := rfl
@[simp] theorem State.flagsAtEnd_r (e : ErrCode) : (s.flagsAtEnd e).r = s.r := rfl
@[simp] theorem State.flagsAtEnd_o (e : ErrCode) : (s.flagsAtEnd e).o = s.o := rfl
@[simp] theorem State.flagsAtEnd_dict (e : ErrCode) : (s.flagsAtEnd e).dict = s.dict := rfl
@[simp] theorem State.flagsAtEnd_busy (e : ErrCode) : (s.flagsAtEnd e).busy = false := rfl
@[simp] theorem State.flagsAtEnd_done (e : ErrCode) : (s.flagsAtEnd e).done = true := rfl
@[simp] theorem State.flagsAtEnd_err (e : ErrCode) : (s.flagsAtEnd e).err = s.errAtEnd e := rfl
@[simp] theorem State.flagsAtEnd_inLen (e : ErrCode) : (s.flagsAtEnd e).inLen = s.inLen := rfl
@[simp] theorem State.flagsAtEnd_errPos (e : ErrCode) : (s.flagsAtEnd e).errPos = s.errPos := rfl
@[simp] theorem State.flagsAtEnd_errInfo (e : ErrCode) : (s.flagsAtEnd e).errInfo = s.errInfo := rfl
@[simp] theorem State.flagsAtEnd_inBuf (e : ErrCode) : (s.flagsAtEnd e).inBuf = s.inBuf := rfl
@[simp] theorem State.flagsAtEnd_outBuf (e : ErrCode) : (s.flagsAtEnd e).outBuf = s.outBuf := rfl
@[simp] theorem State.flagsAtEnd_tainted (e : ErrCode) : (s.flagsAtEnd e).tainted = s.tainted := rfl
@[simp] theorem State.flagsAtEnd_doneUnseen (e : ErrCode) : (s.flagsAtEnd e).doneUnseen = s.doneUnseen := rfl
@[simp] theorem State.flagsAtEnd_epoch (e : ErrCode) : (s.flagsAtEnd e).epoch = s.epoch := rfl
@[simp] theorem State.flagsAtEnd_host (e : ErrCode) : (s.flagsAtEnd e).host = s.host := rfl
@[simp] theorem State.flagsAtEnd_turns (e : ErrCode) : (s.flagsAtEnd e).turns = s.turns := rfl
@[simp] theorem State.flagsAtEnd_rdata (e : ErrCode) : (s.flagsAtEnd e).rdata = s.rdata := rfl

@[simp] theorem State.start_cfg (ph : Phase) : (s.start ph).cfg = s.cfg := rfl
@[simp] theorem State.start_phase (ph : Phase) : (s.start ph).phase = ph := rfl
@[simp] theorem State.start_n (ph : Phase) : (s.start ph).n = s.inLen := rfl
@[simp] theorem State.start_i (ph : Phase) : (s.start ph).i = 0 := rfl
@[simp] theorem State.start_p (ph : Phase) : (s.start ph).p = 0 := rfl
@[simp] theorem State.start_c (ph : Phase) : (s.start ph).c = 0 := rfl
@[simp] theorem State.start_k (ph : Phase) : (s.start ph).k = 0 := rfl
@[simp] theorem State.start_r (ph : Phase) : (s.start ph).r = 0 := rfl
@[simp] theorem State.start_o (ph : Phase) : (s.start ph).o = 0 := rfl
@[simp] theorem State.start_dict (ph : Phase) : (s.start ph).dict = s.dict := rfl
@[simp] theorem State.start_busy (ph : Phase) : (s.start ph).busy = true := rfl
@[simp] theorem State.start_done (ph : Phase) : (s.start ph).done = false := rfl
@[simp] theorem State.start_err (ph : Phase) : (s.start ph).err = .none := rfl
@[simp] theorem State.start_inLen (ph : Phase) : (s.start ph).inLen = s.inLen := rfl
@[simp] theorem State.start_errPos (ph : Phase) : (s.start ph).errPos = 0 := rfl
@[simp] theorem State.start_errInfo (ph : Phase) : (s.start ph).errInfo = 0 := rfl
@[simp] theorem State.start_inBuf (ph : Phase) : (s.start ph).inBuf = s.inBuf := rfl
@[simp] theorem State.start_outBuf (ph : Phase) : (s.start ph).outBuf = s.outBuf := rfl
@[simp] theorem State.start_tainted (ph : Phase) : (s.start ph).tainted = false := rfl
@[simp] theorem State.start_doneUnseen (ph : Phase) : (s.start ph).doneUnseen = true := rfl
@[simp] theorem State.start_epoch (ph : Phase) : (s.start ph).epoch = s.epoch := rfl
@[simp] theorem State.start_host (ph : Phase) : (s.start ph).host = s.host := rfl
@[simp] theorem State.start_turns (ph : Phase) : (s.start ph).turns = s.turns := rfl
@[simp] theorem State.start_rdata (ph : Phase) : (s.start ph).rdata = s.rdata := rfl

@[simp] theorem State.complete_cfg : (s.complete).cfg = s.cfg := rfl
@[simp] theorem State.complete_phase : (s.complete).phase = .idle := rfl
@[simp] theorem State.complete_n : (s.complete).n = s.n := rfl
@[simp] theorem State.complete_i : (s.complete).i = s.i := rfl
@[simp] theorem State.complete_p : (s.complete).p = s.p := rfl
@[simp] theorem State.complete_c : (s.complete).c = s.c := rfl
@[simp] theorem State.complete_k : (s.complete).k = s.k := rfl
@[simp] theorem State.complete_r : (s.complete).r = s.r := rfl
@[simp] theorem State.complete_o : (s.complete).o = s.o := rfl
@[simp] theorem State.complete_dict : (s.complete).dict = s.dict := rfl
@[simp] theorem State.complete_busy : (s.complete).busy = false := rfl
@[simp] theorem State.complete_done : (s.complete).done = true := rfl
@[simp] theorem State.complete_err : (s.complete).err = s.errAtEnd .none := rfl
@[simp] theorem State.complete_inLen : (s.complete).inLen = s.inLen := rfl
@[simp] theorem State.complete_errPos : (s.complete).errPos = s.errPos := rfl
@[simp] theorem State.complete_errInfo : (s.complete).errInfo = s.errInfo := rfl
@[simp] theorem State.complete_inBuf : (s.complete).inBuf = s.inBuf := rfl
@[simp] theorem State.complete_outBuf : (s.complete).outBuf = s.outBuf := rfl
@[simp] theorem State.complete_tainted : (s.complete).tainted = s.tainted := rfl
@[simp] theorem State.complete_doneUnseen : (s.complete).doneUnseen = s.doneUnseen := rfl
@[simp] theorem State.complete_epoch : (s.complete).epoch = s.epoch := rfl
@[simp] theorem State.complete_host : (s.complete).host = s.host := rfl
@[simp] theorem State.complete_turns : (s.complete).turns = s.turns := rfl
@[simp] theorem State.complete_rdata : (s.complete).rdata = s.rdata := rfl

@[simp] theorem State.raise_cfg (e : ErrCode) (pos info : Word) : (s.raise e pos info).cfg = s.cfg := rfl
@[simp] theorem State.raise_phase (e : ErrCode) (pos info : Word) : (s.raise e pos info).phase = .idle := rfl
@[simp] theorem State.raise_n (e : ErrCode) (pos info : Word) : (s.raise e pos info).n = s.n := rfl
@[simp] theorem State.raise_i (e : ErrCode) (pos info : Word) : (s.raise e pos info).i = s.i := rfl
@[simp] theorem State.raise_p (e : ErrCode) (pos info : Word) : (s.raise e pos info).p = s.p := rfl
@[simp] theorem State.raise_c (e : ErrCode) (pos info : Word) : (s.raise e pos info).c = s.c := rfl
@[simp] theorem State.raise_k (e : ErrCode) (pos info : Word) : (s.raise e pos info).k = s.k := rfl
@[simp] theorem State.raise_r (e : ErrCode) (pos info : Word) : (s.raise e pos info).r = s.r := rfl
@[simp] theorem State.raise_o (e : ErrCode) (pos info : Word) : (s.raise e pos info).o = s.o := rfl
@[simp] theorem State.raise_dict (e : ErrCode) (pos info : Word) : (s.raise e pos info).dict = s.dict := rfl
@[simp] theorem State.raise_busy (e : ErrCode) (pos info : Word) : (s.raise e pos info).busy = false := rfl
@[simp] theorem State.raise_done (e : ErrCode) (pos info : Word) : (s.raise e pos info).done = true := rfl
@[simp] theorem State.raise_err (e : ErrCode) (pos info : Word) : (s.raise e pos info).err = s.errAtEnd e := rfl
@[simp] theorem State.raise_inLen (e : ErrCode) (pos info : Word) : (s.raise e pos info).inLen = s.inLen := rfl
@[simp] theorem State.raise_errPos (e : ErrCode) (pos info : Word) : (s.raise e pos info).errPos = pos := rfl
@[simp] theorem State.raise_errInfo (e : ErrCode) (pos info : Word) : (s.raise e pos info).errInfo = info := rfl
@[simp] theorem State.raise_inBuf (e : ErrCode) (pos info : Word) : (s.raise e pos info).inBuf = s.inBuf := rfl
@[simp] theorem State.raise_outBuf (e : ErrCode) (pos info : Word) : (s.raise e pos info).outBuf = s.outBuf := rfl
@[simp] theorem State.raise_tainted (e : ErrCode) (pos info : Word) : (s.raise e pos info).tainted = s.tainted := rfl
@[simp] theorem State.raise_doneUnseen (e : ErrCode) (pos info : Word) : (s.raise e pos info).doneUnseen = s.doneUnseen := rfl
@[simp] theorem State.raise_epoch (e : ErrCode) (pos info : Word) : (s.raise e pos info).epoch = s.epoch := rfl
@[simp] theorem State.raise_host (e : ErrCode) (pos info : Word) : (s.raise e pos info).host = s.host := rfl
@[simp] theorem State.raise_turns (e : ErrCode) (pos info : Word) : (s.raise e pos info).turns = s.turns := rfl
@[simp] theorem State.raise_rdata (e : ErrCode) (pos info : Word) : (s.raise e pos info).rdata = s.rdata := rfl

@[simp] theorem State.beginRecord_cfg : (s.beginRecord).cfg = s.cfg := rfl
@[simp] theorem State.beginRecord_phase : (s.beginRecord).phase = .eSym := rfl
@[simp] theorem State.beginRecord_n : (s.beginRecord).n = s.n := rfl
@[simp] theorem State.beginRecord_i : (s.beginRecord).i = s.i := rfl
@[simp] theorem State.beginRecord_p : (s.beginRecord).p = s.i := rfl
@[simp] theorem State.beginRecord_c : (s.beginRecord).c = 0 := rfl
@[simp] theorem State.beginRecord_k : (s.beginRecord).k = s.k := rfl
@[simp] theorem State.beginRecord_r : (s.beginRecord).r = s.r := rfl
@[simp] theorem State.beginRecord_o : (s.beginRecord).o = s.o := rfl
@[simp] theorem State.beginRecord_dict : (s.beginRecord).dict = s.dict := rfl
@[simp] theorem State.beginRecord_busy : (s.beginRecord).busy = s.busy := rfl
@[simp] theorem State.beginRecord_done : (s.beginRecord).done = s.done := rfl
@[simp] theorem State.beginRecord_err : (s.beginRecord).err = s.err := rfl
@[simp] theorem State.beginRecord_inLen : (s.beginRecord).inLen = s.inLen := rfl
@[simp] theorem State.beginRecord_errPos : (s.beginRecord).errPos = s.errPos := rfl
@[simp] theorem State.beginRecord_errInfo : (s.beginRecord).errInfo = s.errInfo := rfl
@[simp] theorem State.beginRecord_inBuf : (s.beginRecord).inBuf = s.inBuf := rfl
@[simp] theorem State.beginRecord_outBuf : (s.beginRecord).outBuf = s.outBuf := rfl
@[simp] theorem State.beginRecord_tainted : (s.beginRecord).tainted = s.tainted := rfl
@[simp] theorem State.beginRecord_doneUnseen : (s.beginRecord).doneUnseen = s.doneUnseen := rfl
@[simp] theorem State.beginRecord_epoch : (s.beginRecord).epoch = s.epoch := rfl
@[simp] theorem State.beginRecord_host : (s.beginRecord).host = s.host := rfl
@[simp] theorem State.beginRecord_turns : (s.beginRecord).turns = s.turns := rfl
@[simp] theorem State.beginRecord_rdata : (s.beginRecord).rdata = s.rdata := rfl

@[simp] theorem State.extendMatch_cfg (f : Index) : (s.extendMatch f).cfg = s.cfg := rfl
@[simp] theorem State.extendMatch_phase (f : Index) : (s.extendMatch f).phase = s.phase := rfl
@[simp] theorem State.extendMatch_n (f : Index) : (s.extendMatch f).n = s.n := rfl
@[simp] theorem State.extendMatch_i (f : Index) : (s.extendMatch f).i = s.i := rfl
@[simp] theorem State.extendMatch_p (f : Index) : (s.extendMatch f).p = s.p + 1 := rfl
@[simp] theorem State.extendMatch_c (f : Index) : (s.extendMatch f).c = f := rfl
@[simp] theorem State.extendMatch_k (f : Index) : (s.extendMatch f).k = s.k := rfl
@[simp] theorem State.extendMatch_r (f : Index) : (s.extendMatch f).r = s.r := rfl
@[simp] theorem State.extendMatch_o (f : Index) : (s.extendMatch f).o = s.o := rfl
@[simp] theorem State.extendMatch_dict (f : Index) : (s.extendMatch f).dict = s.dict := rfl
@[simp] theorem State.extendMatch_busy (f : Index) : (s.extendMatch f).busy = s.busy := rfl
@[simp] theorem State.extendMatch_done (f : Index) : (s.extendMatch f).done = s.done := rfl
@[simp] theorem State.extendMatch_err (f : Index) : (s.extendMatch f).err = s.err := rfl
@[simp] theorem State.extendMatch_inLen (f : Index) : (s.extendMatch f).inLen = s.inLen := rfl
@[simp] theorem State.extendMatch_errPos (f : Index) : (s.extendMatch f).errPos = s.errPos := rfl
@[simp] theorem State.extendMatch_errInfo (f : Index) : (s.extendMatch f).errInfo = s.errInfo := rfl
@[simp] theorem State.extendMatch_inBuf (f : Index) : (s.extendMatch f).inBuf = s.inBuf := rfl
@[simp] theorem State.extendMatch_outBuf (f : Index) : (s.extendMatch f).outBuf = s.outBuf := rfl
@[simp] theorem State.extendMatch_tainted (f : Index) : (s.extendMatch f).tainted = s.tainted := rfl
@[simp] theorem State.extendMatch_doneUnseen (f : Index) : (s.extendMatch f).doneUnseen = s.doneUnseen := rfl
@[simp] theorem State.extendMatch_epoch (f : Index) : (s.extendMatch f).epoch = s.epoch := rfl
@[simp] theorem State.extendMatch_host (f : Index) : (s.extendMatch f).host = s.host := rfl
@[simp] theorem State.extendMatch_turns (f : Index) : (s.extendMatch f).turns = s.turns := rfl
@[simp] theorem State.extendMatch_rdata (f : Index) : (s.extendMatch f).rdata = s.rdata := rfl

@[simp] theorem State.nextRecord_cfg : (s.nextRecord).cfg = s.cfg := rfl
@[simp] theorem State.nextRecord_phase : (s.nextRecord).phase = .eBegin := rfl
@[simp] theorem State.nextRecord_n : (s.nextRecord).n = s.n := rfl
@[simp] theorem State.nextRecord_i : (s.nextRecord).i = s.p + 1 := rfl
@[simp] theorem State.nextRecord_p : (s.nextRecord).p = s.p := rfl
@[simp] theorem State.nextRecord_c : (s.nextRecord).c = s.c := rfl
@[simp] theorem State.nextRecord_k : (s.nextRecord).k = s.k := rfl
@[simp] theorem State.nextRecord_r : (s.nextRecord).r = s.r := rfl
@[simp] theorem State.nextRecord_o : (s.nextRecord).o = s.o := rfl
@[simp] theorem State.nextRecord_dict : (s.nextRecord).dict = s.dict := rfl
@[simp] theorem State.nextRecord_busy : (s.nextRecord).busy = s.busy := rfl
@[simp] theorem State.nextRecord_done : (s.nextRecord).done = s.done := rfl
@[simp] theorem State.nextRecord_err : (s.nextRecord).err = s.err := rfl
@[simp] theorem State.nextRecord_inLen : (s.nextRecord).inLen = s.inLen := rfl
@[simp] theorem State.nextRecord_errPos : (s.nextRecord).errPos = s.errPos := rfl
@[simp] theorem State.nextRecord_errInfo : (s.nextRecord).errInfo = s.errInfo := rfl
@[simp] theorem State.nextRecord_inBuf : (s.nextRecord).inBuf = s.inBuf := rfl
@[simp] theorem State.nextRecord_outBuf : (s.nextRecord).outBuf = s.outBuf := rfl
@[simp] theorem State.nextRecord_tainted : (s.nextRecord).tainted = s.tainted := rfl
@[simp] theorem State.nextRecord_doneUnseen : (s.nextRecord).doneUnseen = s.doneUnseen := rfl
@[simp] theorem State.nextRecord_epoch : (s.nextRecord).epoch = s.epoch := rfl
@[simp] theorem State.nextRecord_host : (s.nextRecord).host = s.host := rfl
@[simp] theorem State.nextRecord_turns : (s.nextRecord).turns = s.turns := rfl
@[simp] theorem State.nextRecord_rdata : (s.nextRecord).rdata = s.rdata := rfl

@[simp] theorem State.emitted_cfg (node : Index) (sym : Byte) : (s.emitted node sym).cfg = s.cfg := rfl
@[simp] theorem State.emitted_phase (node : Index) (sym : Byte) : (s.emitted node sym).phase = s.phase := rfl
@[simp] theorem State.emitted_n (node : Index) (sym : Byte) : (s.emitted node sym).n = s.n := rfl
@[simp] theorem State.emitted_i (node : Index) (sym : Byte) : (s.emitted node sym).i = s.i := rfl
@[simp] theorem State.emitted_p (node : Index) (sym : Byte) : (s.emitted node sym).p = s.p := rfl
@[simp] theorem State.emitted_c (node : Index) (sym : Byte) : (s.emitted node sym).c = s.c := rfl
@[simp] theorem State.emitted_k (node : Index) (sym : Byte) : (s.emitted node sym).k = s.k + 1 := rfl
@[simp] theorem State.emitted_r (node : Index) (sym : Byte) : (s.emitted node sym).r = s.r + 1 := rfl
@[simp] theorem State.emitted_o (node : Index) (sym : Byte) : (s.emitted node sym).o = s.o + 3 := rfl
@[simp] theorem State.emitted_dict (node : Index) (sym : Byte) : (s.emitted node sym).dict = Store.write s.dict (s.k.toNat + 1) ⟨node, sym⟩ := rfl
@[simp] theorem State.emitted_busy (node : Index) (sym : Byte) : (s.emitted node sym).busy = s.busy := rfl
@[simp] theorem State.emitted_done (node : Index) (sym : Byte) : (s.emitted node sym).done = s.done := rfl
@[simp] theorem State.emitted_err (node : Index) (sym : Byte) : (s.emitted node sym).err = s.err := rfl
@[simp] theorem State.emitted_inLen (node : Index) (sym : Byte) : (s.emitted node sym).inLen = s.inLen := rfl
@[simp] theorem State.emitted_errPos (node : Index) (sym : Byte) : (s.emitted node sym).errPos = s.errPos := rfl
@[simp] theorem State.emitted_errInfo (node : Index) (sym : Byte) : (s.emitted node sym).errInfo = s.errInfo := rfl
@[simp] theorem State.emitted_inBuf (node : Index) (sym : Byte) : (s.emitted node sym).inBuf = s.inBuf := rfl
@[simp] theorem State.emitted_outBuf (node : Index) (sym : Byte) : (s.emitted node sym).outBuf = writeBytes s.outBuf s.o.toNat (frameBytes node sym) := rfl
@[simp] theorem State.emitted_tainted (node : Index) (sym : Byte) : (s.emitted node sym).tainted = s.tainted := rfl
@[simp] theorem State.emitted_doneUnseen (node : Index) (sym : Byte) : (s.emitted node sym).doneUnseen = s.doneUnseen := rfl
@[simp] theorem State.emitted_epoch (node : Index) (sym : Byte) : (s.emitted node sym).epoch = s.epoch := rfl
@[simp] theorem State.emitted_host (node : Index) (sym : Byte) : (s.emitted node sym).host = s.host := rfl
@[simp] theorem State.emitted_turns (node : Index) (sym : Byte) : (s.emitted node sym).turns = s.turns := rfl
@[simp] theorem State.emitted_rdata (node : Index) (sym : Byte) : (s.emitted node sym).rdata = s.rdata := rfl

@[simp] theorem State.enterRecords_cfg : (s.enterRecords).cfg = s.cfg := rfl
@[simp] theorem State.enterRecords_phase : (s.enterRecords).phase = .dRec := rfl
@[simp] theorem State.enterRecords_n : (s.enterRecords).n = s.n := rfl
@[simp] theorem State.enterRecords_i : (s.enterRecords).i = s.i := rfl
@[simp] theorem State.enterRecords_p : (s.enterRecords).p = s.p := rfl
@[simp] theorem State.enterRecords_c : (s.enterRecords).c = s.c := rfl
@[simp] theorem State.enterRecords_k : (s.enterRecords).k = s.k := rfl
@[simp] theorem State.enterRecords_r : (s.enterRecords).r = s.r := rfl
@[simp] theorem State.enterRecords_o : (s.enterRecords).o = s.o := rfl
@[simp] theorem State.enterRecords_dict : (s.enterRecords).dict = s.dict := rfl
@[simp] theorem State.enterRecords_busy : (s.enterRecords).busy = s.busy := rfl
@[simp] theorem State.enterRecords_done : (s.enterRecords).done = s.done := rfl
@[simp] theorem State.enterRecords_err : (s.enterRecords).err = s.err := rfl
@[simp] theorem State.enterRecords_inLen : (s.enterRecords).inLen = s.inLen := rfl
@[simp] theorem State.enterRecords_errPos : (s.enterRecords).errPos = s.errPos := rfl
@[simp] theorem State.enterRecords_errInfo : (s.enterRecords).errInfo = s.errInfo := rfl
@[simp] theorem State.enterRecords_inBuf : (s.enterRecords).inBuf = s.inBuf := rfl
@[simp] theorem State.enterRecords_outBuf : (s.enterRecords).outBuf = s.outBuf := rfl
@[simp] theorem State.enterRecords_tainted : (s.enterRecords).tainted = s.tainted := rfl
@[simp] theorem State.enterRecords_doneUnseen : (s.enterRecords).doneUnseen = s.doneUnseen := rfl
@[simp] theorem State.enterRecords_epoch : (s.enterRecords).epoch = s.epoch := rfl
@[simp] theorem State.enterRecords_host : (s.enterRecords).host = s.host := rfl
@[simp] theorem State.enterRecords_turns : (s.enterRecords).turns = s.turns := rfl
@[simp] theorem State.enterRecords_rdata : (s.enterRecords).rdata = s.rdata := rfl

@[simp] theorem State.appended_cfg (ref : Index) (sym : Byte) (e : List Byte) : (s.appended ref sym e).cfg = s.cfg := rfl
@[simp] theorem State.appended_phase (ref : Index) (sym : Byte) (e : List Byte) : (s.appended ref sym e).phase = s.phase := rfl
@[simp] theorem State.appended_n (ref : Index) (sym : Byte) (e : List Byte) : (s.appended ref sym e).n = s.n := rfl
@[simp] theorem State.appended_i (ref : Index) (sym : Byte) (e : List Byte) : (s.appended ref sym e).i = s.i := rfl
@[simp] theorem State.appended_p (ref : Index) (sym : Byte) (e : List Byte) : (s.appended ref sym e).p = s.p := rfl
@[simp] theorem State.appended_c (ref : Index) (sym : Byte) (e : List Byte) : (s.appended ref sym e).c = s.c := rfl
@[simp] theorem State.appended_k (ref : Index) (sym : Byte) (e : List Byte) : (s.appended ref sym e).k = if s.r.toNat < s.cfg.dictCap then BitVec.ofNat 16 (s.r.toNat + 1) else s.k := rfl
@[simp] theorem State.appended_r (ref : Index) (sym : Byte) (e : List Byte) : (s.appended ref sym e).r = s.r + 1 := rfl
@[simp] theorem State.appended_o (ref : Index) (sym : Byte) (e : List Byte) : (s.appended ref sym e).o = BitVec.ofNat 32 (s.o.toNat + e.length) := rfl
@[simp] theorem State.appended_dict (ref : Index) (sym : Byte) (e : List Byte) : (s.appended ref sym e).dict = if s.r.toNat < s.cfg.dictCap then Store.write s.dict (s.r.toNat + 1) ⟨ref, sym⟩ else s.dict := rfl
@[simp] theorem State.appended_busy (ref : Index) (sym : Byte) (e : List Byte) : (s.appended ref sym e).busy = s.busy := rfl
@[simp] theorem State.appended_done (ref : Index) (sym : Byte) (e : List Byte) : (s.appended ref sym e).done = s.done := rfl
@[simp] theorem State.appended_err (ref : Index) (sym : Byte) (e : List Byte) : (s.appended ref sym e).err = s.err := rfl
@[simp] theorem State.appended_inLen (ref : Index) (sym : Byte) (e : List Byte) : (s.appended ref sym e).inLen = s.inLen := rfl
@[simp] theorem State.appended_errPos (ref : Index) (sym : Byte) (e : List Byte) : (s.appended ref sym e).errPos = s.errPos := rfl
@[simp] theorem State.appended_errInfo (ref : Index) (sym : Byte) (e : List Byte) : (s.appended ref sym e).errInfo = s.errInfo := rfl
@[simp] theorem State.appended_inBuf (ref : Index) (sym : Byte) (e : List Byte) : (s.appended ref sym e).inBuf = s.inBuf := rfl
@[simp] theorem State.appended_outBuf (ref : Index) (sym : Byte) (e : List Byte) : (s.appended ref sym e).outBuf = writeBytes s.outBuf s.o.toNat e := rfl
@[simp] theorem State.appended_tainted (ref : Index) (sym : Byte) (e : List Byte) : (s.appended ref sym e).tainted = s.tainted := rfl
@[simp] theorem State.appended_doneUnseen (ref : Index) (sym : Byte) (e : List Byte) : (s.appended ref sym e).doneUnseen = s.doneUnseen := rfl
@[simp] theorem State.appended_epoch (ref : Index) (sym : Byte) (e : List Byte) : (s.appended ref sym e).epoch = s.epoch := rfl
@[simp] theorem State.appended_host (ref : Index) (sym : Byte) (e : List Byte) : (s.appended ref sym e).host = s.host := rfl
@[simp] theorem State.appended_turns (ref : Index) (sym : Byte) (e : List Byte) : (s.appended ref sym e).turns = s.turns := rfl
@[simp] theorem State.appended_rdata (ref : Index) (sym : Byte) (e : List Byte) : (s.appended ref sym e).rdata = s.rdata := rfl

@[simp] theorem State.storeIn_cfg (a : Nat) (v : Byte) : (s.storeIn a v).cfg = s.cfg := rfl
@[simp] theorem State.storeIn_phase (a : Nat) (v : Byte) : (s.storeIn a v).phase = s.phase := rfl
@[simp] theorem State.storeIn_n (a : Nat) (v : Byte) : (s.storeIn a v).n = s.n := rfl
@[simp] theorem State.storeIn_i (a : Nat) (v : Byte) : (s.storeIn a v).i = s.i := rfl
@[simp] theorem State.storeIn_p (a : Nat) (v : Byte) : (s.storeIn a v).p = s.p := rfl
@[simp] theorem State.storeIn_c (a : Nat) (v : Byte) : (s.storeIn a v).c = s.c := rfl
@[simp] theorem State.storeIn_k (a : Nat) (v : Byte) : (s.storeIn a v).k = s.k := rfl
@[simp] theorem State.storeIn_r (a : Nat) (v : Byte) : (s.storeIn a v).r = s.r := rfl
@[simp] theorem State.storeIn_o (a : Nat) (v : Byte) : (s.storeIn a v).o = s.o := rfl
@[simp] theorem State.storeIn_dict (a : Nat) (v : Byte) : (s.storeIn a v).dict = s.dict := rfl
@[simp] theorem State.storeIn_busy (a : Nat) (v : Byte) : (s.storeIn a v).busy = s.busy := rfl
@[simp] theorem State.storeIn_done (a : Nat) (v : Byte) : (s.storeIn a v).done = s.done := rfl
@[simp] theorem State.storeIn_err (a : Nat) (v : Byte) : (s.storeIn a v).err = s.err := rfl
@[simp] theorem State.storeIn_inLen (a : Nat) (v : Byte) : (s.storeIn a v).inLen = s.inLen := rfl
@[simp] theorem State.storeIn_errPos (a : Nat) (v : Byte) : (s.storeIn a v).errPos = s.errPos := rfl
@[simp] theorem State.storeIn_errInfo (a : Nat) (v : Byte) : (s.storeIn a v).errInfo = s.errInfo := rfl
@[simp] theorem State.storeIn_inBuf (a : Nat) (v : Byte) : (s.storeIn a v).inBuf = writeByte s.inBuf a v := rfl
@[simp] theorem State.storeIn_outBuf (a : Nat) (v : Byte) : (s.storeIn a v).outBuf = s.outBuf := rfl
@[simp] theorem State.storeIn_tainted (a : Nat) (v : Byte) : (s.storeIn a v).tainted = (s.tainted || s.inWriteForbidden) := rfl
@[simp] theorem State.storeIn_doneUnseen (a : Nat) (v : Byte) : (s.storeIn a v).doneUnseen = s.doneUnseen := rfl
@[simp] theorem State.storeIn_epoch (a : Nat) (v : Byte) : (s.storeIn a v).epoch = s.epoch := rfl
@[simp] theorem State.storeIn_host (a : Nat) (v : Byte) : (s.storeIn a v).host = s.host := rfl
@[simp] theorem State.storeIn_turns (a : Nat) (v : Byte) : (s.storeIn a v).turns = s.turns := rfl
@[simp] theorem State.storeIn_rdata (a : Nat) (v : Byte) : (s.storeIn a v).rdata = s.rdata := rfl

@[simp] theorem State.storeInLen_cfg (v : Word) : (s.storeInLen v).cfg = s.cfg := rfl
@[simp] theorem State.storeInLen_phase (v : Word) : (s.storeInLen v).phase = s.phase := rfl
@[simp] theorem State.storeInLen_n (v : Word) : (s.storeInLen v).n = s.n := rfl
@[simp] theorem State.storeInLen_i (v : Word) : (s.storeInLen v).i = s.i := rfl
@[simp] theorem State.storeInLen_p (v : Word) : (s.storeInLen v).p = s.p := rfl
@[simp] theorem State.storeInLen_c (v : Word) : (s.storeInLen v).c = s.c := rfl
@[simp] theorem State.storeInLen_k (v : Word) : (s.storeInLen v).k = s.k := rfl
@[simp] theorem State.storeInLen_r (v : Word) : (s.storeInLen v).r = s.r := rfl
@[simp] theorem State.storeInLen_o (v : Word) : (s.storeInLen v).o = s.o := rfl
@[simp] theorem State.storeInLen_dict (v : Word) : (s.storeInLen v).dict = s.dict := rfl
@[simp] theorem State.storeInLen_busy (v : Word) : (s.storeInLen v).busy = s.busy := rfl
@[simp] theorem State.storeInLen_done (v : Word) : (s.storeInLen v).done = s.done := rfl
@[simp] theorem State.storeInLen_err (v : Word) : (s.storeInLen v).err = s.err := rfl
@[simp] theorem State.storeInLen_inLen (v : Word) : (s.storeInLen v).inLen = v := rfl
@[simp] theorem State.storeInLen_errPos (v : Word) : (s.storeInLen v).errPos = s.errPos := rfl
@[simp] theorem State.storeInLen_errInfo (v : Word) : (s.storeInLen v).errInfo = s.errInfo := rfl
@[simp] theorem State.storeInLen_inBuf (v : Word) : (s.storeInLen v).inBuf = s.inBuf := rfl
@[simp] theorem State.storeInLen_outBuf (v : Word) : (s.storeInLen v).outBuf = s.outBuf := rfl
@[simp] theorem State.storeInLen_tainted (v : Word) : (s.storeInLen v).tainted = s.tainted := rfl
@[simp] theorem State.storeInLen_doneUnseen (v : Word) : (s.storeInLen v).doneUnseen = s.doneUnseen := rfl
@[simp] theorem State.storeInLen_epoch (v : Word) : (s.storeInLen v).epoch = s.epoch := rfl
@[simp] theorem State.storeInLen_host (v : Word) : (s.storeInLen v).host = s.host := rfl
@[simp] theorem State.storeInLen_turns (v : Word) : (s.storeInLen v).turns = s.turns := rfl
@[simp] theorem State.storeInLen_rdata (v : Word) : (s.storeInLen v).rdata = s.rdata := rfl

@[simp] theorem State.resetEvent_cfg : (s.resetEvent).cfg = s.cfg := rfl
@[simp] theorem State.resetEvent_phase : (s.resetEvent).phase = .idle := rfl
@[simp] theorem State.resetEvent_n : (s.resetEvent).n = 0 := rfl
@[simp] theorem State.resetEvent_i : (s.resetEvent).i = 0 := rfl
@[simp] theorem State.resetEvent_p : (s.resetEvent).p = 0 := rfl
@[simp] theorem State.resetEvent_c : (s.resetEvent).c = 0 := rfl
@[simp] theorem State.resetEvent_k : (s.resetEvent).k = 0 := rfl
@[simp] theorem State.resetEvent_r : (s.resetEvent).r = 0 := rfl
@[simp] theorem State.resetEvent_o : (s.resetEvent).o = 0 := rfl
@[simp] theorem State.resetEvent_dict : (s.resetEvent).dict = [] := rfl
@[simp] theorem State.resetEvent_busy : (s.resetEvent).busy = false := rfl
@[simp] theorem State.resetEvent_done : (s.resetEvent).done = false := rfl
@[simp] theorem State.resetEvent_err : (s.resetEvent).err = .none := rfl
@[simp] theorem State.resetEvent_inLen : (s.resetEvent).inLen = 0 := rfl
@[simp] theorem State.resetEvent_errPos : (s.resetEvent).errPos = 0 := rfl
@[simp] theorem State.resetEvent_errInfo : (s.resetEvent).errInfo = 0 := rfl
@[simp] theorem State.resetEvent_inBuf : (s.resetEvent).inBuf = [] := rfl
@[simp] theorem State.resetEvent_outBuf : (s.resetEvent).outBuf = [] := rfl
@[simp] theorem State.resetEvent_tainted : (s.resetEvent).tainted = false := rfl
@[simp] theorem State.resetEvent_doneUnseen : (s.resetEvent).doneUnseen = false := rfl
@[simp] theorem State.resetEvent_epoch : (s.resetEvent).epoch = s.epoch + 1 := rfl
@[simp] theorem State.resetEvent_host : (s.resetEvent).host = s.host := rfl
@[simp] theorem State.resetEvent_turns : (s.resetEvent).turns = s.turns := rfl
@[simp] theorem State.resetEvent_rdata : (s.resetEvent).rdata = s.rdata := rfl

end Sys2Proof.Machine
end

