-- ==== Sys2Proof/Laws/Store.lean ====
section
/-! SUPPORT. The laws of the sparse stores: read after write, the canonical form, and the byte sequences built on them. -/

namespace Sys2Proof.Machine

variable {α : Type}

@[simp] theorem Store.read_nil (a : Nat) : Store.read ([] : List (Nat × α)) a = none := rfl

@[simp] theorem Store.read_write_same (m : List (Nat × α)) (a : Nat) (v : α) :
    Store.read (Store.write m a v) a = some v := by
  induction m with
  | nil => simp [Store.write, Store.read]
  | cons x rest ih =>
    obtain ⟨b, w⟩ := x
    unfold Store.write
    split
    · simp [Store.read]
    · split
      · simp [Store.read]
      · rename_i h
        simp [Store.read, h, ih]

theorem Store.read_write_other (m : List (Nat × α)) (a b : Nat) (v : α) (h : b ≠ a) :
    Store.read (Store.write m a v) b = Store.read m b := by
  induction m with
  | nil => simp [Store.write, Store.read, h]
  | cons x rest ih =>
    obtain ⟨c, w⟩ := x
    unfold Store.write
    split
    · simp [Store.read, h]
    · split
      · rename_i hac
        subst hac
        simp [Store.read, h]
      · simp only [Store.read]
        split
        · rfl
        · exact ih

/-- Read after write, both cases at once. -/
theorem Store.read_write (m : List (Nat × α)) (a b : Nat) (v : α) :
    Store.read (Store.write m a v) b = if b = a then some v else Store.read m b := by
  split
  · rename_i h; subst h; exact Store.read_write_same m b v
  · rename_i h; exact Store.read_write_other m a b v h

/-- What a write lists: the new entry, or an old one. -/
theorem Store.mem_write (m : List (Nat × α)) (a : Nat) (v : α) (x : Nat × α) (h : x ∈ Store.write m a v) :
    x = (a, v) ∨ x ∈ m := by
  induction m with
  | nil => simpa [Store.write] using h
  | cons y rest ih =>
    obtain ⟨b, w⟩ := y
    unfold Store.write at h
    split at h
    · simpa using h
    · split at h
      · rcases List.mem_cons.1 h with h | h
        · exact .inl h
        · exact .inr (List.mem_cons_of_mem _ h)
      · rcases List.mem_cons.1 h with h | h
        · exact .inr (h ▸ List.mem_cons_self)
        · exact (ih h).imp id (List.mem_cons_of_mem _)

/-- A write keeps the canonical form. -/
theorem Store.write_wf (m : List (Nat × α)) (a : Nat) (v : α) (h : Store.wf m) : Store.wf (Store.write m a v) := by
  induction m with
  | nil => simp [Store.write, Store.wf]
  | cons y rest ih =>
    obtain ⟨b, w⟩ := y
    have hb : ∀ z ∈ rest.map Prod.fst, b < z := (List.pairwise_cons.1 h).1
    have hr : Store.wf rest := (List.pairwise_cons.1 h).2
    unfold Store.write
    split
    · rename_i hab
      refine List.pairwise_cons.2 ⟨fun z hz => ?_, h⟩
      rcases List.mem_cons.1 hz with hz | hz
      · subst hz; exact hab
      · exact lt_trans hab (hb z hz)
    · split
      · rename_i hab
        subst hab
        exact h
      · rename_i h1 h2
        refine List.pairwise_cons.2 ⟨fun z hz => ?_, ih hr⟩
        obtain ⟨x, hx, rfl⟩ := List.mem_map.1 hz
        rcases Store.mem_write rest a v x hx with rfl | hx
        · show b < a
          omega
        · exact hb _ (List.mem_map_of_mem hx)

/-- A listed entry is read back, in a canonical store. -/
theorem Store.read_of_mem (m : List (Nat × α)) (h : Store.wf m) (x : Nat × α) (hx : x ∈ m) :
    Store.read m x.1 = some x.2 := by
  induction m with
  | nil => simp at hx
  | cons y rest ih =>
    obtain ⟨b, w⟩ := y
    have hb : ∀ z ∈ rest.map Prod.fst, b < z := (List.pairwise_cons.1 h).1
    rcases List.mem_cons.1 hx with rfl | hx
    · simp [Store.read]
    · have : b < x.1 := hb _ (List.mem_map_of_mem hx)
      have hne : x.1 ≠ b := by omega
      simp only [Store.read, hne, if_false]
      exact ih (List.pairwise_cons.1 h).2 hx

/-- What is read is listed. -/
theorem Store.mem_of_read (m : List (Nat × α)) (a : Nat) (v : α) (h : Store.read m a = some v) : (a, v) ∈ m := by
  induction m with
  | nil => simp at h
  | cons y rest ih =>
    obtain ⟨b, w⟩ := y
    simp only [Store.read] at h
    split at h
    · rename_i hab
      subst hab
      cases h
      exact List.mem_cons_self
    · exact List.mem_cons_of_mem _ (ih h)

/-- Canonical stores that read alike are equal data. -/
theorem Store.ext_of_read (m m' : List (Nat × α)) (h : Store.wf m) (h' : Store.wf m')
    (hr : ∀ a, Store.read m a = Store.read m' a) : m = m' := by
  induction m generalizing m' with
  | nil =>
    cases m' with
    | nil => rfl
    | cons y rest => simpa [Store.read] using hr y.1
  | cons x rest ih =>
    cases m' with
    | nil => simpa [Store.read] using hr x.1
    | cons y rest' =>
      obtain ⟨a, v⟩ := x
      obtain ⟨b, w⟩ := y
      have ha : ∀ z ∈ rest.map Prod.fst, a < z := (List.pairwise_cons.1 h).1
      have hb : ∀ z ∈ rest'.map Prod.fst, b < z := (List.pairwise_cons.1 h').1
      have hA := Store.mem_of_read _ a v ((hr a).symm.trans (by simp [Store.read]))
      have hB := Store.mem_of_read _ b w ((hr b).trans (by simp [Store.read]))
      have hab : (a, v) = (b, w) := by
        rcases List.mem_cons.1 hA with hA | hA
        · exact hA
        · rcases List.mem_cons.1 hB with hB | hB
          · exact hB.symm
          · have h1 : b < a := hb _ (List.mem_map_of_mem hA)
            have h2 : a < b := ha _ (List.mem_map_of_mem hB)
            omega
      cases hab
      congr 1
      refine ih rest' (List.pairwise_cons.1 h).2 (List.pairwise_cons.1 h').2 fun z => ?_
      have hz := hr z
      simp only [Store.read] at hz
      split at hz
      · rename_i hza
        subst hza
        have n1 : Store.read rest z = none := by
          cases hq : Store.read rest z with
          | none => rfl
          | some q => exact absurd (ha _ (List.mem_map_of_mem (Store.mem_of_read _ _ _ hq))) (lt_irrefl _)
        have n2 : Store.read rest' z = none := by
          cases hq : Store.read rest' z with
          | none => rfl
          | some q => exact absurd (hb _ (List.mem_map_of_mem (Store.mem_of_read _ _ _ hq))) (lt_irrefl _)
        rw [n1, n2]
      · exact hz

@[simp] theorem readByte_nil (a : Nat) : readByte [] a = none := rfl

theorem readByte_writeByte (m : Memory) (a b : Nat) (v : Byte) :
    readByte (writeByte m a v) b = if b = a then some v else readByte m b := Store.read_write m a b v

theorem writeByte_wf (m : Memory) (a : Nat) (v : Byte) (h : Memory.wf m) : Memory.wf (writeByte m a v) :=
  Store.write_wf m a v h

theorem writeBytes_wf (m : Memory) (a : Nat) (vs : List Byte) (h : Memory.wf m) : Memory.wf (writeBytes m a vs) := by
  induction vs generalizing m a with
  | nil => exact h
  | cons v rest ih => exact ih _ _ (writeByte_wf m a v h)

/-- A byte sequence in memory: inside its offsets the sequence, outside them what was there. -/
theorem readByte_writeBytes (m : Memory) (a b : Nat) (vs : List Byte) :
    readByte (writeBytes m a vs) b = if a ≤ b ∧ b < a + vs.length then vs[b - a]? else readByte m b := by
  induction vs generalizing m a with
  | nil =>
    have : ¬ (a ≤ b ∧ b < a + ([] : List Byte).length) := by simp
    rw [if_neg this]
    rfl
  | cons v rest ih =>
    rw [writeBytes, ih, readByte_writeByte]
    by_cases hb : b = a
    · subst hb
      simp
    · by_cases hlt : a + 1 ≤ b ∧ b < a + 1 + rest.length
      · have h2 : a ≤ b ∧ b < a + (v :: rest).length := by simp; omega
        have h3 : b - a = (b - (a + 1)) + 1 := by omega
        rw [if_pos hlt, if_pos h2, h3, List.getElem?_cons_succ]
      · have h2 : ¬ (a ≤ b ∧ b < a + (v :: rest).length) := by simp; omega
        rw [if_neg hlt, if_neg h2, if_neg hb]

/-- What a byte sequence written lists: its own offsets, or an old entry. -/
theorem mem_writeBytes (m : Memory) (a : Nat) (vs : List Byte) (x : Host.Cell) (h : x ∈ writeBytes m a vs) :
    (a ≤ x.1 ∧ x.1 < a + vs.length) ∨ x ∈ m := by
  induction vs generalizing m a with
  | nil => exact .inr h
  | cons v rest ih =>
    rcases ih _ _ h with h | h
    · left
      simp only [List.length_cons]
      omega
    · rcases Store.mem_write _ _ _ _ h with rfl | h
      · left
        simp
      · exact .inr h

/-- The canonical form of the reset state's buffers and dictionary. -/
theorem resetWith_memories_wf (c : Params) :
    Memory.wf (State.resetWith c).inBuf ∧ Memory.wf (State.resetWith c).outBuf ∧ Store.wf (State.resetWith c).dict :=
  ⟨List.Pairwise.nil, List.Pairwise.nil, List.Pairwise.nil⟩

end Sys2Proof.Machine
end

