-- ==== Sys2Proof/Laws/Ops.lean ====
section
/-! SUPPORT. For each shared operation one lemma that says everything it can do. The proofs of the statements cite these in
place of unfolding the operation. -/

namespace Sys2Proof.Machine

variable {s t : State}

/-- A read of an IN byte succeeds exactly on an existing, written offset (R82). -/
theorem engineReadIn_ok {a : Nat} {v : Byte} :
    engineReadIn s a = .ok v ↔ a < s.cfg.inMax ∧ readByte s.inBuf a = some v := by
  unfold engineReadIn
  split
  · rename_i h
    split <;> simp_all
  · rename_i h
    simp [h]

/-- A read of an IN byte fails in two ways only (R60, R239). -/
theorem engineReadIn_error {a : Nat} {f : Fault} :
    engineReadIn s a = .error f ↔
      (a < s.cfg.inMax ∧ readByte s.inBuf a = none ∧ f = .unwrittenInput a) ∨
      (s.cfg.inMax ≤ a ∧ f = .inOffsetAbsent a) := by
  unfold engineReadIn
  split
  · rename_i h
    have h' : ¬ s.cfg.inMax ≤ a := by omega
    cases hv : readByte s.inBuf a <;> simp [h, h', eq_comm]
  · rename_i h
    have h' : s.cfg.inMax ≤ a := by omega
    simp [h, h', eq_comm]

/-- DESER answers the three bytes when each is readable (R195). -/
theorem deser_ok {a : Nat} {b0 b1 b2 : Byte} :
    deser s a = .ok (b0, b1, b2) ↔
      engineReadIn s a = .ok b0 ∧ engineReadIn s (a + 1) = .ok b1 ∧ engineReadIn s (a + 2) = .ok b2 := by
  unfold deser
  cases h0 : engineReadIn s a with
  | error f => simp
  | ok v0 =>
    cases h1 : engineReadIn s (a + 1) with
    | error f => simp
    | ok v1 =>
      cases h2 : engineReadIn s (a + 2) with
      | error f => simp
      | ok v2 => simp

/-- DESER fails only where one of its three reads does (R195). -/
theorem deser_error {a : Nat} {f : Fault} (h : deser s a = .error f) :
    ∃ d, d < 3 ∧ engineReadIn s (a + d) = .error f := by
  unfold deser at h
  cases h0 : engineReadIn s a with
  | error g => exact ⟨0, by omega, by simp_all⟩
  | ok v0 =>
    cases h1 : engineReadIn s (a + 1) with
    | error g => exact ⟨1, by omega, by simp_all⟩
    | ok v1 =>
      cases h2 : engineReadIn s (a + 2) with
      | error g => exact ⟨2, by omega, by simp_all⟩
      | ok v2 => simp_all

/-- A command that starts a run is ignored or started (R215, R217). -/
theorem startCommand_cases {ph : Phase} (h : startCommand ph s = .next t) :
    (s.busy = true ∧ t = s) ∨ (s.busy = false ∧ t = s.start ph) := by
  unfold startCommand at h
  split at h <;> cases h <;> simp_all

/-- A record takes an error or is appended (R163 to R167). -/
theorem runRecord_cases {ref : Index} {sym : Byte} (h : runRecord ref sym s = .next t) :
    (s.r.toNat < ref.toNat ∧ t = s.raise .corruptBadReference (errRecordPos s) (ref.zeroExtend 32)) ∨
    ∃ base, ¬ s.r.toNat < ref.toNat ∧ baseString s ref = some base ∧
      ((s.cfg.outMax < s.o.toNat + (base ++ [sym]).length ∧ t = s.raise .outputOverflow (errRecordPos s) 0) ∨
       (s.o.toNat + (base ++ [sym]).length ≤ s.cfg.outMax ∧ t = s.appended ref sym (base ++ [sym]))) := by
  unfold runRecord at h
  split at h
  · rename_i h1
    exact .inl ⟨h1, (Host.Outcome.next.inj h).symm⟩
  · rename_i h1
    right
    split at h
    · cases h
    · rename_i base hb
      refine ⟨base, h1, hb, ?_⟩
      split at h
      · rename_i h2
        exact .inl ⟨h2, (Host.Outcome.next.inj h).symm⟩
      · rename_i h2
        exact .inr ⟨by omega, (Host.Outcome.next.inj h).symm⟩

/-- A record stops in one way only: an entry without a string (R25, R28). -/
theorem runRecord_fault {ref : Index} {sym : Byte} {f : Fault} (h : runRecord ref sym s = .fault f) :
    ¬ s.r.toNat < ref.toNat ∧ baseString s ref = none ∧ f = .entryUndefined ref.toNat := by
  unfold runRecord at h
  split at h
  · cases h
  · rename_i h1
    split at h
    · rename_i hb
      cases h
      exact ⟨h1, hb, rfl⟩
    · split at h <;> cases h

/-- E_BEGIN completes, fails or begins a record, and always answers a next state (R130). -/
theorem engineEBegin_cases :
    (s.i = s.n ∧ engineEBegin s = .next s.complete) ∨
    (s.i ≠ s.n ∧ s.k.toNat = s.cfg.dictCap ∧ engineEBegin s = .next (s.raise .capacityExceeded s.i 0)) ∨
    (s.i ≠ s.n ∧ s.k.toNat ≠ s.cfg.dictCap ∧ engineEBegin s = .next s.beginRecord) := by
  unfold engineEBegin
  by_cases h1 : s.i = s.n
  · simp [h1]
  · by_cases h2 : s.k.toNat = s.cfg.dictCap
    · simp [h1, h2]
    · simp [h1, h2]

/-- The emitting arm of E_SYM (R131, R132). -/
theorem emitAndAdvance_cases {sym : Byte} (h : emitAndAdvance sym s = .next t) :
    s.o.toNat + 3 ≤ s.cfg.outMax ∧ s.k.toNat < s.cfg.dictCap ∧ t = (s.emitted s.c sym).nextRecord := by
  unfold emitAndAdvance emit at h
  split at h
  · rename_i u hu
    split at hu
    · cases hu
    · split at hu
      · cases hu
      · cases hu
        cases h
        exact ⟨by omega, by omega, rfl⟩
  · cases h
  · cases h

/-- Where there is room, the emitting arm of E_SYM answers a next state (R132). -/
theorem emitAndAdvance_next (sym : Byte) (ho : s.o.toNat + 3 ≤ s.cfg.outMax) (hk : s.k.toNat < s.cfg.dictCap) :
    emitAndAdvance sym s = .next (s.emitted s.c sym).nextRecord := by
  have h1 : ¬ s.cfg.outMax < s.o.toNat + 3 := by omega
  have h2 : ¬ s.cfg.dictCap < s.k.toNat + 1 := by omega
  simp [emitAndAdvance, emit, h1, h2]

/-- E_SYM emits or extends (R131). -/
theorem engineESym_cases (h : engineESym s = .next t) :
    ∃ sym, engineReadIn s s.p.toNat = .ok sym ∧
      (((s.atLastSymbol = true ∨ find s s.c sym = 0) ∧ s.o.toNat + 3 ≤ s.cfg.outMax ∧ s.k.toNat < s.cfg.dictCap ∧
          t = (s.emitted s.c sym).nextRecord) ∨
       (s.atLastSymbol = false ∧ find s s.c sym ≠ 0 ∧ t = s.extendMatch (find s s.c sym))) := by
  unfold engineESym at h
  split at h
  · cases h
  · rename_i sym hr
    refine ⟨sym, hr, ?_⟩
    split at h
    · rename_i hl
      exact .inl ⟨.inl hl, emitAndAdvance_cases h⟩
    · rename_i hl
      split at h
      · rename_i hf
        exact .inl ⟨.inr hf, emitAndAdvance_cases h⟩
      · rename_i hf
        exact .inr ⟨by simpa using hl, hf, (Host.Outcome.next.inj h).symm⟩

/-- D_BEGIN fails or passes, and always answers a next state (R166). -/
theorem engineDBegin_cases :
    (s.n.toNat % 3 ≠ 0 ∧ engineDBegin s = .next (s.raise .corruptTruncated s.n 0)) ∨
    (s.n.toNat % 3 = 0 ∧ engineDBegin s = .next s.enterRecords) := by
  unfold engineDBegin
  by_cases h : s.n.toNat % 3 = 0 <;> simp [h]

/-- A decoded record runs as `runRecord` of its two fields, LIT with reference 0 (R93, R167). -/
theorem exec_decodeRecord (b0 b1 b2 : Byte) (s : State) :
    exec (decodeRecord b0 b1 b2) s = runRecord (assembleRef b0 b1) b2 s := by
  unfold decodeRecord
  split
  · rename_i h
    rw [h]
    rfl
  · rfl

/-- D_REC completes or runs the record at 3·R (R167). -/
theorem engineDRec_cases (h : engineDRec s = .next t) :
    (s.allRecordsDone = true ∧ t = s.complete) ∨
    ∃ b0 b1 b2, s.allRecordsDone = false ∧ deser s s.recordPos = .ok (b0, b1, b2) ∧
      runRecord (assembleRef b0 b1) b2 s = .next t := by
  unfold engineDRec at h
  split at h
  · rename_i h1
    exact .inl ⟨h1, (Host.Outcome.next.inj h).symm⟩
  · rename_i h1
    right
    split at h
    · cases h
    · rename_i b0 b1 b2 hd
      exact ⟨b0, b1, b2, by simpa using h1, hd, exec_decodeRecord b0 b1 b2 s ▸ h⟩

/-- An engine step is the step of its phase (R140, R251). -/
theorem engineStep_cases (h : engineStep s = .next t) :
    (s.phase = .idle ∧ t = s) ∨ (s.phase = .eBegin ∧ engineEBegin s.tick = .next t) ∨
    (s.phase = .eSym ∧ engineESym s.tick = .next t) ∨ (s.phase = .dBegin ∧ engineDBegin s.tick = .next t) ∨
    (s.phase = .dRec ∧ engineDRec s.tick = .next t) := by
  unfold engineStep at h
  split at h <;> simp_all

/-- The command decoder answers a command, and each by its own word (R99). -/
theorem decodeCtrl_ok {w : Word} {i : Instr} (h : decodeCtrl w = .ok i) :
    (w = 0#32 ∧ i = .nop) ∨ (w = 1#32 ∧ i = .encode) ∨ (w = 2#32 ∧ i = .decode) := by
  unfold decodeCtrl at h
  split at h
  · exact .inl ⟨by assumption, (Except.ok.inj h).symm⟩
  · split at h
    · exact .inr (.inl ⟨by assumption, (Except.ok.inj h).symm⟩)
    · split at h
      · exact .inr (.inr ⟨by assumption, (Except.ok.inj h).symm⟩)
      · cases h

/-- A CTRL write that answers a next state leaves the state, or starts a command while idle (R210). -/
theorem writeCtrl_cases {w : Word} (h : writeCtrl w s = .next t) :
    t = s ∨ (s.busy = false ∧ (t = s.start .eBegin ∨ t = s.start .dBegin)) := by
  unfold writeCtrl at h
  split at h
  · rename_i i hi
    rcases decodeCtrl_ok hi with ⟨-, rfl⟩ | ⟨-, rfl⟩ | ⟨-, rfl⟩
    · exact .inl (Host.Outcome.next.inj h).symm
    · rcases startCommand_cases h with ⟨-, rfl⟩ | ⟨hb, rfl⟩
      · exact .inl rfl
      · exact .inr ⟨hb, .inl rfl⟩
    · rcases startCommand_cases h with ⟨-, rfl⟩ | ⟨hb, rfl⟩
      · exact .inl rfl
      · exact .inr ⟨hb, .inr rfl⟩
  · cases h

/-- A register write that answers a next state is a command or a store to IN_LEN (R30, R216). -/
theorem writeReg_cases {reg : HostReg} {v : Word} (h : writeReg reg v s = .next t) :
    t = s ∨ (s.busy = false ∧ (t = s.start .eBegin ∨ t = s.start .dBegin)) ∨
    (s.busy = false ∧ v.toNat ≤ s.cfg.inMax ∧ t = s.storeInLen v) := by
  cases reg <;> simp only [writeReg] at h
  case ctrl => exact (writeCtrl_cases h).imp id .inl
  case inLen =>
    unfold writeInLen at h
    split at h
    · cases h
    · split at h
      · exact .inl (Host.Outcome.next.inj h).symm
      · rename_i h1 h2
        exact .inr (.inr ⟨by simpa using h2, by omega, (Host.Outcome.next.inj h).symm⟩)
  all_goals cases h

/-- An IN offset that a host address names is below IN_MAX (R66). -/
theorem locate_inp {c : Params} {addr off : Nat} (h : locate c addr = some (.inp, off)) : off < c.inMax := by
  unfold locate at h
  split at h
  · cases h
  · split at h
    · cases h
      omega
    · split at h <;> cases h

/-- An address in the REG window (R66). -/
theorem locate_reg (c : Params) {off : Nat} (h : off < 32) : locate c (c.regBase + off) = some (.reg, off) := by
  unfold locate
  rw [if_pos (by omega), Nat.add_sub_cancel_left]

/-- An address in the IN window, where the windows do not overlap (R66). -/
theorem locate_in (c : Params) (hv : c.valid) {off : Nat} (h : off < c.inMax) :
    locate c (c.inBase + off) = some (.inp, off) := by
  obtain ⟨-, -, -, -, -, -, h1, -, -⟩ := hv
  unfold rangesDisjoint at h1
  unfold locate
  rw [if_neg (by omega), if_pos (by omega), Nat.add_sub_cancel_left]

/-- An address in the OUT window, where the windows do not overlap (R66). -/
theorem locate_out (c : Params) (hv : c.valid) {off : Nat} (h : off < c.outMax) :
    locate c (c.outBase + off) = some (.out, off) := by
  obtain ⟨-, -, -, -, -, -, -, h2, h3⟩ := hv
  unfold rangesDisjoint at h2 h3
  unfold locate
  rw [if_neg (by omega), if_neg (by omega), if_pos (by omega), Nat.add_sub_cancel_left]

/-- The register map is a bijection onto the eight offsets (R30). -/
@[simp] theorem regAt_regOffset (reg : HostReg) : regAt (regOffset reg) = some reg := by
  cases reg <;> rfl

theorem regOffset_lt (reg : HostReg) : regOffset reg < 32 := by
  cases reg <;> decide

/-- `WR <reg>, v` is the register write (R103). -/
theorem hostAccess_wr (reg : HostReg) (v : Word) (s : State) :
    hostAccess (.wr32 (s.cfg.regBase + regOffset reg) v) s = writeReg reg v s := by
  simp only [hostAccess, locate_reg s.cfg (regOffset_lt reg), regAt_regOffset]

/-- `RD <reg>` is the register read (R103). -/
theorem hostAccess_rd (reg : HostReg) (s : State) :
    hostAccess (.rd32 (s.cfg.regBase + regOffset reg)) s = .next (s.respondReg reg) := by
  simp only [hostAccess, locate_reg s.cfg (regOffset_lt reg), regAt_regOffset]

/-- A host access that answers a next state is a read, a store to IN, a store to IN_LEN, a command, or is ignored (R69). -/
theorem hostAccess_cases {a : Access} (h : hostAccess a s = .next t) :
    (a.isRead = true ∧ ((∃ d, t = s.respond d) ∨ ∃ reg, t = s.respondReg reg)) ∨ (a.isRead = false ∧ t = s) ∨
    (a.isRead = false ∧ ∃ addr off v, a = .wr8 addr v ∧ locate s.cfg addr = some (.inp, off) ∧ off < s.cfg.inMax ∧
      t = s.storeIn off v) ∨
    (a.isRead = false ∧ s.busy = false ∧ (t = s.start .eBegin ∨ t = s.start .dBegin)) ∨
    (a.isRead = false ∧ s.busy = false ∧ ∃ v : Word, v.toNat ≤ s.cfg.inMax ∧ t = s.storeInLen v) := by
  cases a with
  | rd32 addr =>
    simp only [hostAccess] at h
    split at h
    · split at h
      · exact .inl ⟨rfl, .inr ⟨_, (Host.Outcome.next.inj h).symm⟩⟩
      · cases h
    · cases h
    · cases h
  | wr32 addr v =>
    simp only [hostAccess] at h
    split at h
    · split at h
      · rcases writeReg_cases h with h | h | ⟨hb, hv, h⟩
        · exact .inr (.inl ⟨rfl, h⟩)
        · exact .inr (.inr (.inr (.inl ⟨rfl, h⟩)))
        · exact .inr (.inr (.inr (.inr ⟨rfl, hb, v, hv, h⟩)))
      · cases h
    · cases h
    · cases h
  | rd8 addr =>
    simp only [hostAccess] at h
    split at h
    · exact .inl ⟨rfl, .inl ⟨_, (Host.Outcome.next.inj h).symm⟩⟩
    · exact .inl ⟨rfl, .inl ⟨_, (Host.Outcome.next.inj h).symm⟩⟩
    · cases h
    · cases h
  | wr8 addr v =>
    simp only [hostAccess] at h
    split at h
    · rename_i off hl
      exact .inr (.inr (.inl ⟨rfl, addr, off, v, rfl, hl, locate_inp hl, (Host.Outcome.next.inj h).symm⟩))
    · cases h
    · cases h
    · cases h
  | rdOther w addr =>
    simp only [hostAccess] at h
    split at h <;> cases h
  | wrOther w addr =>
    simp only [hostAccess] at h
    split at h <;> cases h

/-- No host access faults. -/
theorem hostAccess_no_fault {a : Access} {f : Fault} : hostAccess a s ≠ .fault f := by
  cases a with
  | wr32 addr v =>
    simp only [hostAccess]
    split
    · split
      · rename_i reg _
        cases reg <;> simp only [writeReg, writeCtrl, writeInLen]
        case ctrl =>
          split
          · rename_i i hi
            rcases decodeCtrl_ok hi with ⟨-, rfl⟩ | ⟨-, rfl⟩ | ⟨-, rfl⟩ <;>
              simp only [exec, execNop, execEncode, execDecode, startCommand] <;> try split
            all_goals exact fun h => nomatch h
          · exact fun h => nomatch h
        case inLen => split <;> [skip; split] <;> exact fun h => nomatch h
        all_goals exact fun h => nomatch h
      · exact fun h => nomatch h
    · exact fun h => nomatch h
    · exact fun h => nomatch h
  | rd32 addr =>
    simp only [hostAccess]
    split
    · split <;> exact fun h => nomatch h
    all_goals exact fun h => nomatch h
  | _ =>
    simp only [hostAccess]
    split <;> exact fun h => nomatch h

/-- An address located in the REG window is that window's base and its offset (R66). -/
theorem eq_of_locate_reg {c : Params} {addr off : Nat} (h : locate c addr = some (.reg, off)) :
    addr = c.regBase + off := by
  unfold locate at h
  split at h
  · cases h; omega
  · split at h
    · cases h
    · split at h <;> cases h

/-- A register is at its own offset only (R30). -/
theorem eq_of_regAt {off : Nat} {reg : HostReg} (h : regAt off = some reg) : off = regOffset reg := by
  unfold regAt at h
  split at h <;> cases h <;> rfl

/-- STATUS is specified in every state (R77). -/
@[simp] theorem readReg_status (s : State) : readReg s .status = s.statusWord := rfl

/-- Bit 0 of STATUS is BUSY (R32). -/
@[simp] theorem statusWord_bit0 (s : State) : s.statusWord.getLsbD 0 = s.busy := by
  unfold State.statusWord statusOf
  cases s.busy <;> cases s.done <;> cases s.err <;> rfl

/-- POLL reads STATUS and is done once BUSY is 0 (R104). -/
theorem pollStep_eq (s : State) :
    pollStep s = if s.busy then .next (s.respondReg .status) else .next (s.popHost.respondReg .status) := by
  unfold pollStep
  rw [readReg_status, statusWord_bit0]

/-- A host turn that answers a next state: nothing left to do, a poll that goes on, a read (a poll that ends among them) after
its operation is taken, or a write access after that and with the draws renewed: the operation itself, or a COPYOUT write of the
byte last read. -/
theorem hostStep_cases (h : hostStep s = .next t) :
    (s.host = [] ∧ t = s) ∨ t = s.respondReg .status ∨
    ((∃ d, t = s.popHost.respond d) ∨ ∃ reg, t = s.popHost.respondReg reg) ∨
    (∃ a rest, a.isRead = false ∧ hostAccess a s.popHost.tick = .next t ∧
      (s.host = .access a :: rest ∨
        ∃ addr v, a = .wr8 addr v ∧ s.host = .writeRead addr :: rest ∧ s.rdata = some (.byte v))) := by
  unfold hostStep at h
  split at h
  · rename_i hh
    exact .inl ⟨hh, (Host.Outcome.next.inj h).symm⟩
  · rename_i a rest hh
    unfold accessStep at h
    split at h
    · rename_i hr
      rcases hostAccess_cases h with ⟨-, h⟩ | ⟨hn, -⟩ | ⟨hn, -⟩ | ⟨hn, -⟩ | ⟨hn, -⟩
      · exact .inr (.inr (.inl h))
      all_goals simp [hr] at hn
    · rename_i hr
      exact .inr (.inr (.inr ⟨a, rest, by simpa using hr, h, .inl hh⟩))
  · unfold pollStep at h
    split at h
    · exact .inr (.inl (Host.Outcome.next.inj h).symm)
    · exact .inr (.inr (.inl (.inr ⟨_, (Host.Outcome.next.inj h).symm⟩)))
  · rename_i addr rest hh
    split at h
    · rename_i v hv
      exact .inr (.inr (.inr ⟨.wr8 addr v, rest, rfl, h, .inr ⟨addr, v, rfl, hh, hv⟩⟩))
    · cases h

/-- A step is a turn of the engine, of the host, or of the reset input (R14, R270). -/
theorem step_cases (h : step s = .next t) :
    (s.nextTurn = .engine ∧ engineStep s.popTurn = .next t) ∨ (s.nextTurn = .host ∧ hostStep s.popTurn = .next t) ∨
    (s.nextTurn = .reset ∧ t = s.popTurn.resetEvent) := by
  unfold step at h
  split at h
  · exact .inl ⟨by assumption, h⟩
  · exact .inr (.inl ⟨by assumption, h⟩)
  · exact .inr (.inr ⟨by assumption, (Host.Outcome.next.inj h).symm⟩)

end Sys2Proof.Machine
end

