-- ==== Sys2Proof/Laws/PerInstr.lean ====
section
/-! SUPPORT. A statement about every instruction as syntax, one lemma per constructor: the encoder's word lies in the row of
spec/opcode_table.json that the instruction stands for (R101). -/

namespace Sys2Proof.Laws.TableRow

/-- The two field values of a record word: W[23:8] (R91). -/
def refField (w : Nat) : Nat := w / 256

/-- W[7:0] (R91). -/
def symField (w : Nat) : Nat := w % 256

/-- The opcode table's row of an instruction, as a condition on the width and the value of its word (R101). -/
def rowHolds : Instr → Nat × Nat → Prop
  | .nop, (nbits, w) => nbits = 32 ∧ w = 0x00000000
  | .encode, (nbits, w) => nbits = 32 ∧ w = 0x00000001
  | .decode, (nbits, w) => nbits = 32 ∧ w = 0x00000002
  | .lit sym, (nbits, w) => nbits = 24 ∧ w < 2 ^ 24 ∧ refField w = 0 ∧ symField w = sym.toNat
  | .ext ref sym, (nbits, w) =>
    nbits = 24 ∧ w < 2 ^ 24 ∧ refField w ≠ 0 ∧ refField w = ref.toNat ∧ symField w = sym.toNat

/-- The word of a well-formed instruction lies in its row. -/
def Statement (i : Instr) : Prop := i.wellFormed = true → rowHolds i (encodeTableWord i)

theorem nop : Statement .nop := fun _ => ⟨rfl, rfl⟩

theorem encode : Statement .encode := fun _ => ⟨rfl, rfl⟩

theorem decode : Statement .decode := fun _ => ⟨rfl, rfl⟩

theorem encodeTableWord_lit (sym : Byte) : encodeTableWord (.lit sym) = (24, sym.toNat) := by
  simp [encodeTableWord, encodeInstr]

/-- The two reference bytes hold the reference (R92). -/
theorem refBytes_value (ref : Index) : (refHigh ref).toNat * 256 + (refLow ref).toNat = ref.toNat := by
  have hr := ref.isLt
  simp only [refHigh, refLow, BitVec.extractLsb'_toNat, Nat.shiftRight_eq_div_pow]
  omega

theorem encodeTableWord_ext (ref : Index) (sym : Byte) :
    encodeTableWord (.ext ref sym) = (24, ref.toNat * 256 + sym.toNat) := by
  have hb := refBytes_value ref
  have hv : (refHigh ref).toNat * 65536 + (refLow ref).toNat * 256 + sym.toNat = ref.toNat * 256 + sym.toNat := by
    rw [← hb]
    ring
  unfold encodeTableWord encodeInstr
  rw [← hv]

theorem lit (sym : Byte) : Statement (.lit sym) := fun _ => by
  have h := sym.isLt
  rw [encodeTableWord_lit]
  simp only [rowHolds, refField, symField, true_and]
  omega

theorem ext (ref : Index) (sym : Byte) : Statement (.ext ref sym) := fun hw => by
  have hs := sym.isLt
  have hr := ref.isLt
  have hne : ref ≠ 0 := by simpa [Instr.wellFormed] using hw
  have hnz : ref.toNat ≠ 0 := fun h0 => hne (BitVec.eq_of_toNat_eq h0)
  rw [encodeTableWord_ext]
  simp only [rowHolds, refField, symField, true_and]
  omega

end Sys2Proof.Laws.TableRow
end

