-- ==== Sys2Proof/Tests/Slice0.lean ====
section
/-! SUPPORT. The model's own tests, each with the vector of spec/95_test_vectors.md (or the rule) its expected result comes
from, and for every statement with premises a witness that they can hold together. -/

namespace Sys2Proof.Tests

open Sys2Proof Sys2Proof.Machine

/-! ## Well-formedness and decoding -/

/-- The one check of WellFormed refuses an EXT with reference 0 (R93). -/
theorem test_wellFormed_ext_zero : (Instr.ext 0 0x41).wellFormed = false := by decide

theorem test_wellFormed_others :
    Instr.nop.wellFormed && Instr.encode.wellFormed && Instr.decode.wellFormed && (Instr.lit 0).wellFormed &&
      (Instr.ext 65535 0).wellFormed = true := by decide

/-- NOP's word, R99: bits 31:2 zero, CMD 00. -/
theorem test_decode_nop : decodeCtrl 0b00000000000000000000000000000000#32 = .ok .nop := by decide

/-- ENCODE's word, R99: CMD 01. -/
theorem test_decode_encode : decodeCtrl 0b00000000000000000000000000000001#32 = .ok .encode := by decide

/-- DECODE's word, R99: CMD 10. -/
theorem test_decode_decode : decodeCtrl 0b00000000000000000000000000000010#32 = .ok .decode := by decide

/-- H3 and H4: CMD 11, and a set bit 31. -/
theorem test_decode_reserved :
    decodeCtrl 0x00000003#32 = .error (.reservedCommand 0x00000003#32) ∧
    decodeCtrl 0x80000001#32 = .error (.reservedCommand 0x80000001#32) := by decide

/-- LIT's word by the table's bits: 16 zeros, then s = 0x41 (W2). -/
theorem test_decode_lit : decodeTableWord 24 0b000000000000000001000001 = some (.lit 0x41) := by decide

/-- EXT's word by the table's bits: i = 0x1234 in 23:8, s = 0x56 in 7:0 (F4). -/
theorem test_decode_ext : decodeTableWord 24 0b000100100011010001010110 = some (.ext 0x1234 0x56) := by decide

/-- F7: the bytes 01 00 00 are reference 256, not 1. -/
theorem test_decode_big_endian : decodeStream [0x01, 0x00, 0x00, 0xAA] = .ok (.ext 256 0, [0xAA]) := by decide

/-- R97: fewer than 3 bytes are no record. -/
theorem test_decode_short : decodeStream [0x00, 0x00] = .error .truncatedRecord := by decide

/-- F5: FRAME(65534, 0x41) is FF FE 41. -/
theorem test_encode_ext : encodeInstr (.ext 65534 0x41) = .wire 0xFF 0xFE 0x41 := by decide

/-! ## Sample states -/

/-- Whether an outcome is a next state with a property. -/
def onNext (x : Result) (p : State → Bool) : Bool :=
  match x with
  | .next t => p t
  | .fault _ => false
  | .refused _ => false

/-- IN = 61 61 61 61 (E4), IN_LEN = 4, idle. -/
def sampleIdle : State :=
  { State.reset with inBuf := [(0, 0x61), (1, 0x61), (2, 0x61), (3, 0x61)], inLen := 4 }

/-- E4 after START. -/
def sampleBegin : State := sampleIdle.start .eBegin

/-- E4 after its first record: at the third step of the trace, before the E_SYM at I = P = 1. -/
def sampleMatch : State :=
  { sampleBegin with
    phase := .eSym, i := 1, p := 1, k := 1, r := 1, o := 3
    dict := [(1, ⟨0, 0x61⟩)], outBuf := [(0, 0x00), (1, 0x00), (2, 0x61)] }

/-- E4 one step later: P = 2, C = 1. -/
def sampleExtended : State := { sampleMatch with p := 2, c := 1 }

/-- E4's last symbol: I = P = 3, R = K = 2, O = 6. -/
def sampleLast : State :=
  { sampleMatch with
    i := 3, p := 3, k := 2, r := 2, o := 6
    dict := [(1, ⟨0, 0x61⟩), (2, ⟨1, 0x61⟩)]
    outBuf := [(0, 0x00), (1, 0x00), (2, 0x61), (3, 0x00), (4, 0x01), (5, 0x61)] }

/-- A DECODE of 00 00 41 00 01 42 (D9) after its first record. -/
def sampleRecord : State :=
  { State.reset with
    inBuf := [(0, 0x00), (1, 0x00), (2, 0x41), (3, 0x00), (4, 0x01), (5, 0x42)], inLen := 6, n := 6
    phase := .dRec, busy := true, doneUnseen := true, r := 1, k := 1, o := 1
    dict := [(1, ⟨0, 0x41⟩)], outBuf := [(0, 0x41)] }

/-- D8 at its end, seen by the host: STATUS 0x0E, ERR_POS 3, ERR_INFO 2. -/
def sampleFailed : State :=
  { sampleRecord with
    phase := .idle, busy := false, done := true, doneUnseen := false
    err := .corruptBadReference, errPos := 3, errInfo := 2 }

/-- An OUT with no room left, for the overflow cases. -/
def sampleFull : State :=
  { sampleRecord with
    o := 48, outBuf := (List.range 48).map fun a => (a, 0x41) }

/-- E4 with the test-only DICT_CAP = 1, after its first record: K = DICT_CAP with I < N (C6's situation). -/
def sampleCapacity : State := { sampleMatch with cfg := { Config.defaultParams with dictCap := 1 }, phase := .eBegin }

/-- The samples are states the invariant admits. -/
theorem inv_sampleIdle : sampleIdle.Inv := by refine ⟨?_, ?_, ?_, ?_, ?_, ?_, ?_, ?_⟩ <;> decide

theorem inv_sampleBegin : sampleBegin.Inv := by refine ⟨?_, ?_, ?_, ?_, ?_, ?_, ?_, ?_⟩ <;> decide

theorem inv_sampleMatch : sampleMatch.Inv := by refine ⟨?_, ?_, ?_, ?_, ?_, ?_, ?_, ?_⟩ <;> decide

theorem inv_sampleRecord : sampleRecord.Inv := by refine ⟨?_, ?_, ?_, ?_, ?_, ?_, ?_, ?_⟩ <;> decide

theorem inv_sampleFailed : sampleFailed.Inv := by refine ⟨?_, ?_, ?_, ?_, ?_, ?_, ?_, ?_⟩ <;> decide

/-- A DECODE of 00 00 41 at its error-free end, seen by the host: STATUS 0x02 (D2). -/
def sampleDone : State :=
  { sampleRecord with phase := .idle, busy := false, done := true, doneUnseen := false, inLen := 3, n := 3 }

theorem inv_sampleDone : sampleDone.Inv := by refine ⟨?_, ?_, ?_, ?_, ?_, ?_, ?_, ?_⟩ <;> decide

/-- The same end before the host has read STATUS. -/
def sampleUnseen : State := { sampleDone with doneUnseen := true }

theorem inv_sampleUnseen : sampleUnseen.Inv := by refine ⟨?_, ?_, ?_, ?_, ?_, ?_, ?_, ?_⟩ <;> decide

/-- `sampleMatch` with nothing written to IN. -/
theorem inv_sampleUnwritten : ({ sampleMatch with inBuf := [] } : State).Inv := by
  refine ⟨?_, ?_, ?_, ?_, ?_, ?_, ?_, ?_⟩ <;> decide

/-- `sampleMatch` with another IN_LEN and another epoch. -/
theorem inv_sampleMatchOther : ({ sampleMatch with inLen := 3, epoch := 9 } : State).Inv := by
  refine ⟨?_, ?_, ?_, ?_, ?_, ?_, ?_, ?_⟩ <;> decide

/-- `sampleIdle` in an instance with the test-only DICT_CAP = 2. -/
theorem inv_sampleSmall : ({ sampleIdle with cfg := { Config.defaultParams with dictCap := 2 } } : State).Inv := by
  refine ⟨?_, ?_, ?_, ?_, ?_, ?_, ?_, ?_⟩ <;> decide

/-! ## One step each -/

/-- H2: NOP leaves STATUS. -/
theorem test_nop_keeps_status : onNext (exec .nop sampleFailed) (fun t => t.statusWord == 0x0E#32) = true := by decide

/-- R217: ENCODE latches N and sets STATUS 0x01. -/
theorem test_encode_starts :
    onNext (exec .encode sampleIdle) (fun t => t.statusWord == 0x01#32 && t.n == 4 && t.phase == .eBegin) = true := by
  decide

/-- H15: a DECODE while an ENCODE runs is ignored. -/
theorem test_decode_while_busy_ignored :
    onNext (exec .decode sampleMatch) (fun t => t == sampleMatch) = true := by decide

/-- H17: a start clears ERR_POS, ERR_INFO and ERR. -/
theorem test_decode_clears_error :
    onNext (exec .decode sampleFailed)
      (fun t => t.statusWord == 0x01#32 && t.errPos == 0 && t.errInfo == 0 && t.phase == .dBegin) = true := by
  decide

/-- D10's second record: LIT of a symbol that is already an entry makes a second entry. -/
theorem test_lit_duplicate :
    onNext (exec (.lit 0x41) sampleRecord)
      (fun t => t.o == 2 && t.k == 2 && Store.read t.dict 2 == some ⟨0, 0x41⟩) = true := by
  decide

/-- R165 for LIT: OUT full, STATUS 0x12, ERR_POS 3·R. -/
theorem test_lit_overflow :
    onNext (exec (.lit 0x41) sampleFull)
      (fun t => t.statusWord == 0x12#32 && t.errPos == 3 && t.o == 48 && t.r == 1) = true := by
  decide

/-- D9: ref = R is legal; the entry is 41 42. -/
theorem test_ext_last_entry :
    onNext (exec (.ext 1 0x42) sampleRecord)
      (fun t => t.outBuf == [(0, 0x41), (1, 0x41), (2, 0x42)] && t.o == 3 && t.k == 2 && t.busy) = true := by
  decide

/-- D8: ref = R + 1 is a bad reference. -/
theorem test_ext_bad_reference :
    onNext (exec (.ext 2 0x42) sampleRecord)
      (fun t => t.statusWord == 0x0E#32 && t.errPos == 3 && t.errInfo == 2 && t.o == 1 && t.r == 1) = true := by
  decide

/-- Trace of E4: the first E_SYM of record 2 extends the match to entry 1. -/
theorem test_sym_extends :
    onNext (engineStep sampleMatch) (fun t => t.p == 2 && t.c == 1 && t.phase == .eSym && t.r == 1) = true := by
  decide

/-- Trace of E4: the next E_SYM emits 00 01 61. -/
theorem test_sym_emits :
    onNext (engineStep sampleExtended)
      (fun t => t.i == 3 && t.k == 2 && t.o == 6 && t.outBuf.drop 3 == [(3, 0x00), (4, 0x01), (5, 0x61)]) = true := by
  decide

/-- Trace of E4: the last symbol is emitted as LIT although [61] is entry 1. -/
theorem test_sym_last :
    onNext (engineStep sampleLast)
      (fun t => t.i == 4 && t.k == 3 && t.outBuf.drop 6 == [(6, 0x00), (7, 0x00), (8, 0x61)]) = true := by
  decide

/-- C6's situation: E_BEGIN with K = DICT_CAP takes CapacityExceeded at the cursor. -/
theorem test_capacity :
    onNext (engineStep sampleCapacity) (fun t => t.statusWord == 0x06#32 && t.errPos == 1 && t.o == 3) = true := by
  decide

/-- D5: four bytes, STATUS 0x0A, ERR_POS 4. -/
theorem test_truncated :
    onNext (engineStep (sampleIdle.start .dBegin)) (fun t => t.statusWord == 0x0A#32 && t.errPos == 4) = true := by
  decide

/-- R239: an E_SYM on a byte nobody wrote is the model's fault. -/
theorem test_unwritten :
    (match engineStep { sampleMatch with inBuf := [] } with
     | .fault f => f == .unwrittenInput 1
     | _ => false) = true := by
  decide

/-- H18: `WRB IN[5], 0x41` at the host's turn. -/
theorem test_host_writes_in :
    onNext (step { State.reset with host := [hostWrb Config.defaultParams 5 0x41] })
      (fun t => t.written 5 && t.host == []) = true := by
  decide

/-- H13: a STATUS read while busy returns 1. -/
theorem test_host_reads_status :
    onNext (step { sampleBegin with host := [hostRd Config.defaultParams .status], turns := [.host] })
      (fun t => t.rdata == some (.word 0x00000001#32) && t.busy) = true := by
  decide

/-- R277: the STATUS read that shows DONE = 1 makes the results specified. -/
theorem test_status_read_shows_done :
    onNext (hostAccess (.rd32 0x04) sampleUnseen) (fun t => sampleUnseen.unspecified && !t.unspecified) = true := by decide

/-- R276: an IN write before that read marks the run, one after it does not; neither writes ERR (R35). -/
theorem test_in_write_before_done_is_read :
    onNext (hostAccess (.wr8 0x1000 0) sampleUnseen) (fun t => t.tainted && t.err == .none) = true ∧
    onNext (hostAccess (.wr8 0x1000 0) sampleDone) (fun t => !t.tainted && t.err == .none) = true := by decide

/-- H9, H10, H12: accesses that are refused. -/
theorem test_host_refused :
    (match hostAccess (.rd32 0x20) State.reset with | .refused q => q == .outsideWindows 0x20 | _ => false) = true ∧
    (match hostAccess (.rdOther .w16 0x04) State.reset with | .refused q => q == .wrongWidth 0x04 | _ => false) = true ∧
    (match hostAccess (.wr8 0x1010 0) State.reset with | .refused q => q == .outsideWindows 0x1010 | _ => false) = true := by
  decide

/-- A placed command runs as the first instruction after reset. -/
theorem test_fetch_command :
    onNext (step (State.reset.withFetchWord 32 0x00000001)) (fun t => t.phase == .eBegin && t.busy) = true := by
  decide

/-- A placed record runs as the first instruction after reset (D2). -/
theorem test_fetch_record :
    onNext (step (State.reset.withFetchWord 24 0x000041)) (fun t => t.outBuf == [(0, 0x41)] && t.r == 1) = true := by
  decide

/-- P6: both orders of the second CTRL write and the engine's step exist. -/
theorem test_interleavings :
    onNext (step { sampleBegin with host := hostDecode Config.defaultParams, turns := [.host] })
      (fun t => t.host == [] && t.phase == .eBegin) = true ∧
    onNext (step { sampleBegin with host := hostDecode Config.defaultParams, turns := [.engine] })
      (fun t => t.host != [] && t.phase == .eSym) = true := by
  decide

/-- W3 for the functions: the document's regression test. -/
theorem test_encodeInf_aaaa :
    Codec.encodeInf [97, 97, 97, 97] = [⟨0, 97⟩, ⟨1, 97⟩, ⟨0, 97⟩] := by decide

/-- C1 for the functions. -/
theorem test_encode_capacity : Codec.encode 2 [65, 65, 65, 65] = .capacityExceeded 3 := by decide

/-- W4 for the functions, and R172's non-canonical stream. -/
theorem test_decode_function :
    (match Codec.decode [⟨5, 66⟩] with | .error e => e == .badReference 1 5 | .ok _ => false) = true ∧
    (match Codec.decode [⟨0, 65⟩, ⟨0, 65⟩, ⟨0, 66⟩] with | .ok y => y == [65, 65, 66] | .error _ => false) = true := by
  decide

/-! ## Witnesses: the premises of each statement hold together -/

theorem witness_DecodeOfEncodeIsIdentity : (Instr.ext 65535 0xFF).wellFormed = true := by decide

theorem witness_EncodeOfDecodeIsIdentity : decodeCtrl 2#32 = .ok .decode := by decide

theorem witness_RecordFieldsAndKinds :
    (0x00#8).toNat * 256 + (0x00#8).toNat = 0 ∧ (0x00#8).toNat * 256 + (0x01#8).toNat ≠ 0 ∧
    (0x01#8).toNat * 256 + (0x00#8).toNat ≠ 0 := by decide

theorem witness_ReservedCommandWordsAreRefused :
    (0x00000003#32 ≠ 0x00000000#32 ∧ 0x00000003#32 ≠ 0x00000001#32 ∧ 0x00000003#32 ≠ 0x00000002#32) ∧
    (0x00000004#32 ≠ 0x00000000#32 ∧ 0x00000004#32 ≠ 0x00000001#32 ∧ 0x00000004#32 ≠ 0x00000002#32) := by decide

theorem witness_CommandStartsARun : sampleIdle.busy = false := by decide

theorem witness_CommandsWhileBusyAreIgnored :
    sampleMatch.busy = true ∧ ({ sampleMatch with turns := [.host] } : State).nextTurn = .host ∧
    ∃ t, step { sampleMatch with turns := [.host], host := hostDecode Config.defaultParams } = .next t :=
  ⟨by decide, by decide, _, rfl⟩

theorem witness_CommandFrame : (∃ t, exec .nop sampleIdle = .next t) ∧ (∃ t, exec .encode sampleIdle = .next t) ∧
    (∃ t, exec .decode sampleMatch = .next t) := ⟨⟨_, rfl⟩, ⟨_, rfl⟩, ⟨_, rfl⟩⟩

theorem witness_LiteralRecordAppends :
    sampleRecord.o.toNat + 1 ≤ sampleRecord.cfg.outMax ∧
    ({ sampleRecord with o := 47 } : State).o.toNat + 1 ≤ sampleRecord.cfg.outMax := by decide

theorem witness_ExtensionRecordAppends :
    (1 : Index) ≠ 0 ∧ (1 : Index).toNat ≤ sampleRecord.r.toNat ∧ str sampleRecord (1 : Index).toNat = some [0x41] ∧
    sampleRecord.o.toNat + ([0x41] : List Byte).length + 1 ≤ sampleRecord.cfg.outMax := by decide

theorem witness_BadReferenceIsTaken : sampleRecord.r.toNat < (2 : Index).toNat := by decide

theorem witness_OutputOverflowIsTaken :
    sampleFull.cfg.outMax < sampleFull.o.toNat + 1 ∧ (1 : Index).toNat ≤ sampleFull.r.toNat ∧
    str sampleFull (1 : Index).toNat = some [0x41] ∧ sampleFull.cfg.outMax < sampleFull.o.toNat + (1 + 1) := by decide

theorem witness_RecordFrame :
    (∃ t, exec (.lit 0x41) sampleRecord = .next t) ∧ (∃ t, exec (.ext 1 0x42) sampleRecord = .next t) ∧
    (∃ t, exec (.ext 2 0x42) sampleRecord = .next t) ∧ baseString sampleRecord 1 = some [0x41] :=
  ⟨⟨_, rfl⟩, ⟨_, rfl⟩, ⟨_, rfl⟩, by decide⟩

theorem witness_StepRunsTheDecodedCommand :
    ({ sampleIdle with host := [hostWr Config.defaultParams .ctrl 1#32] } : State).nextTurn = .host ∧
    decodeCtrl 1#32 = .ok .encode := by decide

theorem witness_StepRunsTheDecodedRecord :
    sampleRecord.nextTurn = .engine ∧ sampleRecord.phase = .dRec ∧ 3 * sampleRecord.r.toNat ≠ sampleRecord.n.toNat ∧
    3 * sampleRecord.r.toNat + 2 < sampleRecord.cfg.inMax ∧ readByte sampleRecord.inBuf 3 = some 0x00 ∧
    readByte sampleRecord.inBuf 4 = some 0x01 ∧ readByte sampleRecord.inBuf 5 = some 0x42 := by decide

theorem witness_EngineTurnRunsTheEngine :
    sampleBegin.nextTurn = .engine ∧ sampleBegin.phase = .eBegin ∧ sampleMatch.phase = .eSym ∧
    (sampleIdle.start .dBegin).phase = .dBegin ∧ sampleRecord.phase = .dRec ∧ sampleIdle.phase = .idle := by decide

/-- Each operation at the head of a host's program, at the host's turn. -/
theorem witness_HostTurnRunsTheOperation :
    sampleIdle.nextTurn = .host ∧ sampleIdle.host = [] ∧
    ({ sampleIdle with host := [hostWrb Config.defaultParams 0 7] } : State).nextTurn = .host ∧
    (Access.wr8 0x1000 7).isRead = false ∧ (Access.rd32 0x04).isRead = true ∧
    ({ sampleMatch with turns := [.host], host := [.poll] } : State).nextTurn = .host ∧ sampleMatch.busy = true ∧
    ({ sampleUnseen with host := [.poll] } : State).nextTurn = .host ∧ sampleUnseen.busy = false ∧
    ({ sampleDone with host := [.writeRead 0x1000], rdata := some (.byte 7) } : State).nextTurn = .host ∧
    ∀ v, sampleDone.rdata ≠ some (.byte v) := by
  exact ⟨by decide, by decide, by decide, by decide, by decide, by decide, by decide, by decide, by decide, by decide,
    fun _ h => nomatch h⟩

theorem witness_RecordBeginStep :
    (State.reset.i = State.reset.n) ∧
    (sampleCapacity.i ≠ sampleCapacity.n ∧ sampleCapacity.k.toNat = sampleCapacity.cfg.dictCap) ∧
    (sampleBegin.i ≠ sampleBegin.n ∧ sampleBegin.k.toNat ≠ sampleBegin.cfg.dictCap) := by decide

theorem witness_SymbolStepEmits :
    (sampleLast.p.toNat < sampleLast.cfg.inMax ∧ readByte sampleLast.inBuf 3 = some 0x61 ∧
      sampleLast.p.toNat + 1 = sampleLast.n.toNat ∧ sampleLast.o.toNat + 3 ≤ sampleLast.cfg.outMax ∧
      sampleLast.k.toNat < sampleLast.cfg.dictCap) ∧
    (readByte sampleExtended.inBuf sampleExtended.p.toNat = some 0x61 ∧
      find sampleExtended sampleExtended.c 0x61 = 0) := by decide

theorem witness_SymbolStepExtends :
    sampleMatch.p.toNat < sampleMatch.cfg.inMax ∧ readByte sampleMatch.inBuf sampleMatch.p.toNat = some 0x61 ∧
    sampleMatch.p.toNat + 1 ≠ sampleMatch.n.toNat ∧ find sampleMatch sampleMatch.c 0x61 ≠ 0 := by decide

theorem witness_UnwrittenInputFaults :
    (({ sampleMatch with inBuf := [] } : State).written 1 = false ∧ sampleMatch.p.toNat < sampleMatch.cfg.inMax) ∧
    (3 * sampleRecord.r.toNat ≠ sampleRecord.n.toNat ∧
      ({ sampleRecord with inBuf := [(3, 0), (4, 1)] } : State).written 3 = true ∧
      ({ sampleRecord with inBuf := [(3, 0), (4, 1)] } : State).written 4 = true ∧
      ({ sampleRecord with inBuf := [(3, 0), (4, 1)] } : State).written 5 = false) := by decide

/-- FIND vectors of 95_test_vectors.md: an entry found, and none. -/
theorem witness_FindIsTheLeastMatch :
    (find sampleLast 1 0x61).toNat = 2 ∧ find sampleLast 2 0x61 = 0 := by decide

theorem witness_StringOfAnEntry :
    sampleLast.DictOk ∧ Store.read sampleLast.dict 2 = some ⟨1, 0x61⟩ ∧ str sampleLast 2 = some [0x61, 0x61] ∧
    Store.read sampleLast.dict 1 = some ⟨0, 0x61⟩ := by decide

theorem witness_StreamLengthCheck : sampleBegin.n.toNat % 3 ≠ 0 ∧ sampleRecord.n.toNat % 3 = 0 := by decide

theorem witness_CompletionSetsDone :
    sampleRecord.tainted = false ∧ 3 * ({ sampleRecord with r := 2 } : State).r.toNat = sampleRecord.n.toNat ∧
    State.reset.i = State.reset.n := by decide

theorem witness_FaultEntryEffect : sampleRecord.tainted = false := by decide

theorem witness_StatusWordFields : sampleFailed.Inv := inv_sampleFailed

/-- An end with an error, an error-free one, and an IN write before the host has seen the end. -/
theorem witness_ErrorIsSticky :
    (sampleFailed.Inv ∧ sampleFailed.done = true ∧ sampleFailed.err ≠ .none ∧ sampleFailed.nextTurn ≠ .reset ∧
      ∃ t, step sampleFailed = .next t ∧ t.busy = false) ∧
    (sampleDone.Inv ∧ sampleDone.done = true ∧ sampleDone.err = .none ∧ sampleDone.nextTurn ≠ .reset ∧
      ∃ t, step sampleDone = .next t ∧ t.busy = false) ∧
    (sampleUnseen.Inv ∧ sampleUnseen.done = true ∧ sampleUnseen.tainted = false ∧
      ∃ t, step { sampleUnseen with host := [hostWrb Config.defaultParams 0 7] } = .next t ∧ t.busy = false ∧
        t.tainted = true) :=
  ⟨⟨inv_sampleFailed, by decide, by decide, by decide, _, rfl, rfl⟩,
    ⟨inv_sampleDone, by decide, by decide, by decide, _, rfl, rfl⟩, inv_sampleUnseen, rfl, rfl, _, rfl, rfl, rfl⟩

theorem witness_RegisterReadValues :
    sampleFailed.busy = false ∧ sampleFailed.doneUnseen = false ∧ sampleFailed.tainted = false := by decide

theorem witness_ReadsWhileBusy :
    (sampleMatch.Inv ∧ sampleMatch.busy = true) ∧
    (sampleUnseen.Inv ∧ sampleUnseen.busy = false ∧ sampleUnseen.doneUnseen = true) :=
  ⟨⟨inv_sampleMatch, by decide⟩, inv_sampleUnseen, rfl, rfl⟩

theorem witness_ReadsHaveNoSideEffect :
    (Access.rd32 0x0C).isRead = true ∧ (∃ t, hostAccess (.rd32 0x0C) sampleMatch = .next t) ∧
    ∃ t, hostAccess (.rd32 0x04) sampleUnseen = .next t ∧ t.doneUnseen = false := ⟨rfl, ⟨_, rfl⟩, _, rfl, rfl⟩

theorem witness_InLenWrite :
    (16#32).toNat ≤ sampleIdle.cfg.inMax ∧ sampleIdle.busy = false ∧ sampleMatch.busy = true ∧
    sampleIdle.cfg.inMax < (17#32).toNat := by decide

theorem witness_InByteWriteAndRead :
    State.reset.cfg.valid ∧ 15 < State.reset.cfg.inMax ∧ 0 < State.reset.cfg.inMax ∧
    State.reset.written 15 = false := by decide

theorem witness_OutByteRead :
    sampleFailed.Inv ∧ sampleFailed.busy = false ∧ sampleFailed.doneUnseen = false ∧ sampleFailed.tainted = false ∧ 0 < sampleFailed.o.toNat ∧
    sampleFailed.o.toNat ≤ 1 ∧ 1 < sampleFailed.cfg.outMax ∧ 47 < sampleFailed.cfg.outMax :=
  ⟨inv_sampleFailed, by decide⟩

theorem witness_ForbiddenAccessesAreRefused :
    State.reset.cfg.valid ∧ 31 < 32 ∧ 31 % 4 ≠ 0 ∧ 1 % 4 ≠ 0 ∧ HostReg.errInfo ≠ .ctrl ∧ HostReg.errInfo ≠ .inLen ∧
    15 < State.reset.cfg.inMax ∧ 47 < State.reset.cfg.outMax := by decide

/-- H9 and H12: the first address past the REG window and past the IN window. -/
theorem witness_AccessesOutsideTheWindowsAreRefused :
    locate State.reset.cfg 0x20 = none ∧ locate State.reset.cfg 0x1010 = none ∧ locate State.reset.cfg 0x2030 = none := by
  decide

theorem witness_HostAccessFrame :
    (∃ t, hostAccess (.wr8 0x100F 0x41) sampleIdle = .next t) ∧ locate sampleIdle.cfg 0x100F = some (.inp, 15) ∧
    (∃ t, hostAccess (.wr32 0x08 16#32) sampleIdle = .next t) ∧
    ∃ t, hostAccess (.wr8 0x100F 0x41) sampleUnseen = .next t := ⟨⟨_, rfl⟩, by decide, ⟨_, rfl⟩, _, rfl⟩

/-- A running ENCODE, an end the host has not seen, a marked ENCODE at its completing step, and a marked idle state. -/
theorem witness_InWriteWhileBusyMakesResultsDraws :
    sampleMatch.cfg.valid ∧ sampleMatch.busy = true ∧ 15 < sampleMatch.cfg.inMax ∧
    (sampleUnseen.busy = false ∧ sampleUnseen.doneUnseen = true) ∧
    (∃ t, engineStep { sampleBegin with tainted := true, i := 4 } = .next t ∧ t.phase = .idle) ∧
    (({ sampleDone with tainted := true } : State).tainted = true ∧
      ({ sampleDone with tainted := true } : State).busy = false) :=
  ⟨by decide, by decide, by decide, ⟨rfl, rfl⟩, ⟨_, rfl, rfl⟩, rfl, rfl⟩

theorem witness_ResetLeaves : ({ sampleMatch with turns := [.reset] } : State).nextTurn = .reset := by decide

theorem witness_IdleEngineTakesNoStep :
    State.reset.phase = .idle ∧ ({ State.reset with turns := [.engine] } : State).nextTurn = .engine ∧
    State.reset.nextTurn = .host ∧ State.reset.host = [] := by decide

/-- A valid choice of the parameters other than the reset state's, with the windows adjoining. -/
theorem witness_InvariantHoldsAtReset : (⟨2, 1, 3, 0, 32, 33⟩ : Params).valid := by decide

theorem witness_StepKeepsTheInvariant :
    (sampleMatch.Inv ∧ ∃ t, step sampleMatch = .next t) ∧ (sampleRecord.Inv ∧ ∃ t, step sampleRecord = .next t) ∧
    (sampleIdle.Inv ∧ ∃ t, step sampleIdle = .next t) :=
  ⟨⟨inv_sampleMatch, _, rfl⟩, ⟨inv_sampleRecord, _, rfl⟩, ⟨inv_sampleIdle, _, rfl⟩⟩

theorem witness_ParametersNeverChange : ∃ t, step sampleMatch = .next t := ⟨_, rfl⟩

theorem witness_EngineStepFrame : sampleMatch.Inv ∧ ∃ t, engineStep sampleMatch = .next t := ⟨inv_sampleMatch, _, rfl⟩

/-- A running ENCODE whose input is not written, so that its step does fault, and a host turn that is refused. -/
theorem witness_OnlyUnwrittenInputFaults :
    ({ sampleMatch with inBuf := [] } : State).Inv ∧ sampleMatch.cfg.dictCap = 65535 ∧
    (∃ f, step { sampleMatch with inBuf := [] } = .fault f) ∧
    ∃ q, step { sampleIdle with host := [hostWr Config.defaultParams .ctrl 3#32] } = .refused q :=
  ⟨inv_sampleUnwritten, by decide, ⟨_, rfl⟩, _, rfl⟩

/-- Two states at the same point of a command, one with a stale dictionary entry above K and more bytes in OUT. -/
theorem witness_CommandsAreIsolated :
    (sampleMatch.Inv ∧ ({ sampleMatch with inLen := 3, epoch := 9 } : State).Inv ∧
      sampleMatch.sameCommand { sampleMatch with inLen := 3, epoch := 9 } ∧ ∃ t, engineStep sampleMatch = .next t) ∧
    (sampleIdle.cfg = ({ sampleIdle with dict := [(1, ⟨0, 7⟩)] } : State).cfg ∧
      sampleIdle.inLen = ({ sampleIdle with dict := [(1, ⟨0, 7⟩)] } : State).inLen) :=
  ⟨⟨inv_sampleMatch, inv_sampleMatchOther,
    ⟨rfl, rfl, rfl, rfl, rfl, rfl, rfl, rfl, rfl, rfl, rfl, rfl, rfl, rfl, rfl, rfl, fun _ _ => rfl, fun _ => rfl,
      fun _ _ => rfl⟩, _, rfl⟩, rfl, rfl⟩

theorem witness_EveryCommandEnds :
    (sampleMatch.Inv ∧ sampleMatch.cfg.dictCap = 65535 ∧ sampleMatch.busy = true ∧
      ∀ a, a < sampleMatch.n.toNat → sampleMatch.written a = true) ∧
    (sampleRecord.Inv ∧ sampleRecord.cfg.dictCap = 65535 ∧ sampleRecord.busy = true ∧
      ∀ a, a < sampleRecord.n.toNat → sampleRecord.written a = true) :=
  ⟨⟨inv_sampleMatch, by decide⟩, inv_sampleRecord, by decide⟩

theorem witness_FrameWritesThreeBytes : 2 < 3 ∧ 3 + 3 ≤ 6 := by decide

theorem witness_FrameAndDeframeAreInverse :
    (∀ x : Codec.Record, x ∈ [(⟨65535, 0xFF⟩ : Codec.Record), ⟨0, 0⟩] → x.ref ≤ 65535) ∧
    ([0xFF, 0xFF, 0xFF, 0x00, 0x00, 0x00] : List Byte).length % 3 = 0 := by decide

theorem witness_EncoderRecordBounds : (Codec.encodeInf [97, 97, 97])[1]? = some ⟨1, 97⟩ := by decide

/-- A match that stops at a slice that is no key, and one that stops at the end of the source. -/
theorem witness_EncoderMatchIsGreedy :
    ([97, 98] : List Byte) ≠ [] ∧ Codec.matchLength [([97], 1)] [97, 98, 99] 3 1 = 2 ∧
    Codec.matchLength [([97], 1)] [97] 1 1 = 1 := by decide

theorem witness_RoundTripLaw :
    Codec.encode 65535 [97, 97, 97, 97] = .records [⟨0, 97⟩, ⟨1, 97⟩, ⟨0, 97⟩] := by decide

theorem witness_EmptyInputEncodes : State.reset.busy = false ∧ State.reset.inLen = 0 := by decide

/-- Both clauses: 61 61 61 61 with DICT_CAP = 65535, and with the test-only DICT_CAP = 2 (C1's input shape). -/
theorem witness_EncodeStepsComputeEncode :
    (sampleIdle.Inv ∧ sampleIdle.busy = false ∧ sampleIdle.inLen.toNat = ([0x61, 0x61, 0x61, 0x61] : List Byte).length ∧
      sampleIdle.inHolds [0x61, 0x61, 0x61, 0x61] ∧
      Codec.encode 65535 [0x61, 0x61, 0x61, 0x61] = .records [⟨0, 97⟩, ⟨1, 97⟩, ⟨0, 97⟩]) ∧
    (({ sampleIdle with cfg := { Config.defaultParams with dictCap := 2 } } : State).Inv ∧
      Codec.encode 2 [0x61, 0x61, 0x61, 0x61] = .capacityExceeded 3) :=
  ⟨⟨inv_sampleIdle, by decide⟩, inv_sampleSmall, by decide⟩

/-- A LIT and 17 records that each extend the entry before them: 171 output bytes, 153 of them before the last record. -/
def growingRecords : List Codec.Record := (List.range 18).map fun j => ⟨j, 0x41⟩

/-- An instance with IN_MAX = 54 and OUT_MAX = 162, its IN the stream of `growingRecords`. -/
def sampleGrowing : State :=
  { State.reset with
    cfg := { Config.defaultParams with inMax := 54, outMax := 162 }
    inLen := 54
    inBuf := (Codec.frame growingRecords).zipIdx.map fun x => (x.2, x.1) }

theorem inv_sampleGrowing : sampleGrowing.Inv := by refine ⟨?_, ?_, ?_, ?_, ?_, ?_, ?_, ?_⟩ <;> decide

/-- The last clause: in a state the invariant admits, a stream whose output passes OUT_MAX = 162 at its last record. -/
theorem witness_decode_overflow_input :
    sampleGrowing.Inv ∧ sampleGrowing.inLen.toNat = 54 ∧ sampleGrowing.inHolds (Codec.frame growingRecords) ∧
    sampleGrowing.cfg.outMax = 162 := ⟨inv_sampleGrowing, rfl, by decide, rfl⟩

/-- The length of the output `decode` answers, if it answers one. -/
def decodedLength (rs : List Codec.Record) : Option Nat :=
  match Codec.decode rs with
  | .ok y => some y.length
  | .error _ => none

set_option maxRecDepth 4000 in
theorem witness_decode_overflow_fits : decodedLength (growingRecords.take 17) = some 153 := by decide

set_option maxRecDepth 4000 in
theorem witness_decode_overflow_passes : decodedLength (growingRecords.take 18) = some 171 := by decide

/-- The other clauses: D5 (truncated), D9 (decoded) and D8 (bad reference, the output before it fitting). -/
theorem witness_DecodeStepsComputeDecode :
    (sampleIdle.Inv ∧ sampleIdle.cfg.dictCap = 65535 ∧ sampleIdle.busy = false ∧
      sampleIdle.inHolds [0x61, 0x61, 0x61, 0x61]) ∧
    (match Codec.deframe [0x61, 0x61, 0x61, 0x61] with | .error e => e == .truncated | .ok _ => false) = true ∧
    (match Codec.decode [⟨0, 65⟩, ⟨1, 66⟩] with | .ok y => y == [65, 65, 66] | .error _ => false) = true ∧
    (match Codec.decode [⟨0, 65⟩, ⟨2, 66⟩] with | .error e => e == .badReference 2 2 | .ok _ => false) = true ∧
    (match Codec.decode ([⟨0, 65⟩, ⟨2, 66⟩].take 1) with | .ok y => y == [65] | .error _ => false) = true :=
  ⟨⟨inv_sampleIdle, by decide⟩, by decide⟩

theorem witness_HardwareRoundTrip :
    sampleIdle.Inv ∧ sampleIdle.cfg.dictCap = 65535 ∧ sampleIdle.busy = false ∧
    sampleIdle.inLen.toNat = ([0x61, 0x61, 0x61, 0x61] : List Byte).length ∧ sampleIdle.inHolds [0x61, 0x61, 0x61, 0x61] ∧
    Codec.encode 65535 [0x61, 0x61, 0x61, 0x61] = .records [⟨0, 97⟩, ⟨1, 97⟩, ⟨0, 97⟩] ∧
    (Codec.frame [⟨0, 97⟩, ⟨1, 97⟩, ⟨0, 97⟩]).length ≤ sampleIdle.cfg.inMax :=
  ⟨inv_sampleIdle, by decide⟩

end Sys2Proof.Tests
end

section
/-! PROOFS. The engine's turn: one equation per phase of `engineStep`, and `step` at a turn of the engine. -/

namespace Sys2Proof.Machine

variable {s : State}

/-- R251: an idle engine takes no step. -/
theorem engineStep_of_idle (h : s.phase = .idle) : engineStep s = .next s := by
  rw [engineStep, h]

theorem engineStep_of_eBegin (h : s.phase = .eBegin) : engineStep s = engineEBegin s.tick := by
  rw [engineStep, h]

theorem engineStep_of_eSym (h : s.phase = .eSym) : engineStep s = engineESym s.tick := by
  rw [engineStep, h]

theorem engineStep_of_dBegin (h : s.phase = .dBegin) : engineStep s = engineDBegin s.tick := by
  rw [engineStep, h]

theorem engineStep_of_dRec (h : s.phase = .dRec) : engineStep s = engineDRec s.tick := by
  rw [engineStep, h]

/-- R14, R74: a turn of the engine is taken off the list, and then the engine steps. -/
theorem step_of_engineTurn (h : s.nextTurn = .engine) : step s = engineStep s.popTurn := by
  rw [step, h]

/-- Settles O17: the step at the engine's turn, then the engine's step in each phase. -/
theorem engineTurnRunsTheEngine : Obligations.EngineTurnRunsTheEngine := fun _ =>
  ⟨step_of_engineTurn, engineStep_of_idle, engineStep_of_eBegin, engineStep_of_eSym, engineStep_of_dBegin,
    engineStep_of_dRec⟩

end Sys2Proof.Machine
end

section
/-! PROOFS. What a turn does to the state: the named updates an engine step and a host step apply, each with the part of its
guard that the invariant and the frames rest on, and `step` over them. -/

namespace Sys2Proof.Machine

/-- The update a step of a running engine applies (R130, R131, R166, R167), the draws renewed before it. -/
inductive EngineUpdate (s : State) : State → Prop where
  /-- No source byte, or no record, is left (R133, R168). -/
  | complete (hp : s.phase ≠ .idle) : EngineUpdate s s.complete
  /-- An error is taken (R236). -/
  | raise (e : ErrCode) (pos info : Word) (hp : s.phase ≠ .idle) : EngineUpdate s (s.raise e pos info)
  /-- E_BEGIN begins an empty match (R130). -/
  | beginRecord (hp : s.phase = .eBegin) (hi : s.i ≠ s.n) (hk : s.k.toNat ≠ s.cfg.dictCap) :
      EngineUpdate s s.beginRecord
  /-- E_SYM extends the match (R131). -/
  | extendMatch (sym : Byte) (hp : s.phase = .eSym) (hl : s.atLastSymbol = false) :
      EngineUpdate s (s.extendMatch (find s s.c sym))
  /-- E_SYM emits a record (R131, R132). -/
  | emit (sym : Byte) (hp : s.phase = .eSym) (ho : s.o.toNat + 3 ≤ s.cfg.outMax) (hk : s.k.toNat < s.cfg.dictCap) :
      EngineUpdate s (s.emitted s.c sym).nextRecord
  /-- D_BEGIN passes (R166). -/
  | enterRecords (hp : s.phase = .dBegin) (hn : s.n.toNat % 3 = 0) : EngineUpdate s s.enterRecords
  /-- D_REC appends a record's entry (R164, R165). -/
  | append (ref : Index) (sym : Byte) (base : List Byte) (hp : s.phase = .dRec) (hd : s.allRecordsDone = false)
      (href : ref.toNat ≤ s.r.toNat) (ho : s.o.toNat + (base ++ [sym]).length ≤ s.cfg.outMax) :
      EngineUpdate s (s.appended ref sym (base ++ [sym]))

/-- The update a host step applies (R69, R210 to R220). -/
inductive HostUpdate (s : State) : State → Prop where
  /-- The host's program has ended. -/
  | ended : HostUpdate s s
  /-- A POLL read that shows BUSY = 1: the operation stays (R104). -/
  | pollAgain : HostUpdate s (s.respondReg .status)
  /-- A byte read (R219, R220). -/
  | read (d : BusData) : HostUpdate s (s.popHost.respond d)
  /-- A register read, or the last read of a POLL (R218, R104). -/
  | readReg (reg : HostReg) : HostUpdate s (s.popHost.respondReg reg)
  /-- NOP, or a write ignored while busy (R211, R215, R216). -/
  | ignored : HostUpdate s s.popHost.tick
  /-- A byte write of IN, of given data or of the byte last read (R219, R104). -/
  | storeIn (addr off : Nat) (v : Byte) (rest : List HostOp)
      (hop : s.host = .access (.wr8 addr v) :: rest ∨ (s.host = .writeRead addr :: rest ∧ s.rdata = some (.byte v)))
      (hloc : locate s.cfg addr = some (.inp, off)) : HostUpdate s (s.popHost.tick.storeIn off v)
  /-- A command start (R217). -/
  | start (ph : Phase) (hph : ph = .eBegin ∨ ph = .dBegin) (hb : s.busy = false) :
      HostUpdate s (s.popHost.tick.start ph)
  /-- An IN_LEN write that takes effect (R216). -/
  | storeInLen (v : Word) (hb : s.busy = false) (hv : v.toNat ≤ s.cfg.inMax) :
      HostUpdate s (s.popHost.tick.storeInLen v)

variable {s t : State}

/-- R163 to R167: a record that answers a next state is appended, or takes an error. -/
theorem engineUpdate_of_runRecord {ref : Index} {sym : Byte} (hp : s.phase = .dRec) (hd : s.allRecordsDone = false)
    (h : runRecord ref sym s = .next t) : EngineUpdate s t := by
  have hp' : s.phase ≠ .idle := by simp [hp]
  rcases runRecord_cases h with ⟨-, rfl⟩ | ⟨base, href, -, ⟨-, rfl⟩ | ⟨ho, rfl⟩⟩
  · exact .raise _ _ _ hp'
  · exact .raise _ _ _ hp'
  · exact .append ref sym base hp hd (Nat.not_lt.1 href) ho

/-- R140, R251: an engine step leaves an idle engine as it is, or applies one update of a running one. -/
theorem engineUpdate_of_engineStep (h : engineStep s = .next t) :
    (s.phase = .idle ∧ t = s) ∨ EngineUpdate s.tick t := by
  rcases engineStep_cases h with h | ⟨hp, h⟩ | ⟨hp, h⟩ | ⟨hp, h⟩ | ⟨hp, h⟩
  · exact .inl h
  all_goals
    right
    have hp' : s.tick.phase ≠ .idle := by simp [hp]
  · rcases engineEBegin_cases (s := s.tick) with ⟨-, he⟩ | ⟨-, -, he⟩ | ⟨hi, hk, he⟩ <;> cases he.symm.trans h
    · exact .complete hp'
    · exact .raise _ _ _ hp'
    · exact .beginRecord hp hi hk
  · obtain ⟨sym, -, ⟨-, ho, hk, rfl⟩ | ⟨hl, -, rfl⟩⟩ := engineESym_cases h
    · exact .emit sym hp ho hk
    · exact .extendMatch sym hp hl
  · rcases engineDBegin_cases (s := s.tick) with ⟨-, he⟩ | ⟨hn, he⟩ <;> cases he.symm.trans h
    · exact .raise _ _ _ hp'
    · exact .enterRecords hp hn
  · rcases engineDRec_cases h with ⟨-, rfl⟩ | ⟨b0, b1, b2, hd, -, hr⟩
    · exact .complete hp'
    · exact engineUpdate_of_runRecord hp hd hr

/-- R69, R104: a host step that answers a next state applies one update. -/
theorem hostUpdate_of_hostStep (h : hostStep s = .next t) : HostUpdate s t := by
  rcases hostStep_cases h with ⟨-, rfl⟩ | rfl | (⟨d, rfl⟩ | ⟨reg, rfl⟩) | ⟨a, rest, hw, ha, hop⟩
  · exact .ended
  · exact .pollAgain
  · exact .read d
  · exact .readReg reg
  · rcases hostAccess_cases ha with ⟨hr, -⟩ | ⟨-, rfl⟩ | ⟨-, addr, off, v, rfl, hloc, -, rfl⟩ | ⟨-, hb, hst⟩ |
      ⟨-, hb, v, hv, rfl⟩
    · simp [hw] at hr
    · exact .ignored
    · refine .storeIn addr off v rest (hop.imp id ?_) hloc
      rintro ⟨addr', v', hwr, hh, hd⟩
      cases hwr
      exact ⟨hh, hd⟩
    · rcases hst with rfl | rfl
      · exact .start _ (.inl rfl) hb
      · exact .start _ (.inr rfl) hb
    · exact .storeInLen v hb hv

/-- R14, R251, R270: a step is an idle engine's turn, an update of a running engine or of the host, or reset. -/
theorem step_updates (h : step s = .next t) :
    (s.nextTurn = .engine ∧ s.phase = .idle ∧ t = s.popTurn) ∨
    (s.nextTurn = .engine ∧ EngineUpdate s.popTurn.tick t) ∨
    (s.nextTurn = .host ∧ HostUpdate s.popTurn t) ∨ (s.nextTurn = .reset ∧ t = s.popTurn.resetEvent) := by
  rcases step_cases h with ⟨hn, h⟩ | ⟨hn, h⟩ | h
  · exact (engineUpdate_of_engineStep h).elim (fun hi => .inl ⟨hn, hi⟩) fun hu => .inr (.inl ⟨hn, hu⟩)
  · exact .inr (.inr (.inl ⟨hn, hostUpdate_of_hostStep h⟩))
  · exact .inr (.inr (.inr h))

end Sys2Proof.Machine
end

section
/-! PROOFS. The registers and memories an engine update keeps, and those a record changes when it is emitted or appended. -/

namespace Sys2Proof.Machine

variable {s t : State}

/-- R20, R44, R62: the parameters, IN, IN_LEN, N, the marks and the host's side are no engine step's to change. -/
theorem EngineUpdate.keeps (h : EngineUpdate s t) :
    t.cfg = s.cfg ∧ t.inLen = s.inLen ∧ t.n = s.n ∧ t.host = s.host ∧ t.turns = s.turns ∧ t.rdata = s.rdata ∧
    t.tainted = s.tainted ∧ t.doneUnseen = s.doneUnseen ∧ t.inBuf = s.inBuf := by
  cases h <;> exact ⟨rfl, rfl, rfl, rfl, rfl, rfl, rfl, rfl, rfl⟩

/-- R20: nor are the parameters a host step's to change. -/
theorem HostUpdate.cfg_eq (h : HostUpdate s t) : t.cfg = s.cfg := by
  cases h <;> rfl

/-- R251: an engine update is a running engine's. -/
theorem EngineUpdate.running (h : EngineUpdate s t) : s.phase ≠ .idle := by
  cases h with
  | complete hp | raise _ _ _ hp => exact hp
  | beginRecord hp | extendMatch _ hp | emit _ hp | enterRecords hp | append _ _ _ hp => simp [hp]

/-- What one record does, emitted by ENCODE or executed by DECODE: its bytes `e` go to OUT at O, it counts in R, and it adds
entry K + 1, `x`, or, with the dictionary full, none (R132, R164, R165). -/
structure RecordEffect (s t : State) (e : List Byte) (x : DictEntry) : Prop where
  outBuf : t.outBuf = writeBytes s.outBuf s.o.toNat e
  o : t.o.toNat = s.o.toNat + e.length
  room : s.o.toNat + e.length ≤ s.cfg.outMax
  r : t.r.toNat = s.r.toNat + 1
  entry : (s.k.toNat < s.cfg.dictCap ∧ x.parent.toNat ≤ s.k.toNat ∧ t.dict = Store.write s.dict (s.k.toNat + 1) x ∧
      t.k.toNat = s.k.toNat + 1) ∨ (s.cfg.dictCap ≤ s.k.toNat ∧ t.dict = s.dict ∧ t.k = s.k)

/-- R132: EMIT in E_SYM; no counter wraps. -/
theorem recordEffect_emitted (hs : s.Inv) (sym : Byte) (hp : s.phase = .eSym) (ho : s.o.toNat + 3 ≤ s.cfg.outMax)
    (hk : s.k.toNat < s.cfg.dictCap) :
    RecordEffect s (s.emitted s.c sym).nextRecord (frameBytes s.c sym) ⟨s.c, sym⟩ := by
  obtain ⟨⟨-, hcap, -, -, -, hout, -⟩, -, -, -, henc, hmatch, -, -⟩ := hs
  obtain ⟨-, -, hkr, -⟩ := henc (.inr hp)
  obtain ⟨-, -, hc, -⟩ := hmatch hp
  refine ⟨rfl, ?_, ho, ?_, .inl ⟨hk, hc, rfl, ?_⟩⟩
  · show (s.o + 3).toNat = s.o.toNat + 3
    bv_omega
  · show (s.r + 1).toNat = s.r.toNat + 1
    bv_omega
  · show (s.k + 1).toNat = s.k.toNat + 1
    bv_omega

/-- R173: while a record is left, all of its three bytes lie below N. -/
theorem recordPos_add_three_le (h : s.DecodeOk) (hd : s.allRecordsDone = false) : 3 * s.r.toNat + 3 ≤ s.n.toNat := by
  obtain ⟨hmod, hle, -⟩ := h
  simp only [State.allRecordsDone, State.recordPos, beq_eq_false_iff_ne] at hd hle
  omega

/-- R164, R165: a record DECODE appends; no counter wraps. -/
theorem recordEffect_appended (hs : s.Inv) {ref : Index} (sym : Byte) {e : List Byte} (hp : s.phase = .dRec)
    (hd : s.allRecordsDone = false) (href : ref.toNat ≤ s.r.toNat) (ho : s.o.toNat + e.length ≤ s.cfg.outMax) :
    RecordEffect s (s.appended ref sym e) e ⟨ref, sym⟩ := by
  obtain ⟨⟨-, hcap, -, -, -, hout, -⟩, -, -, -, -, -, -, hdec⟩ := hs
  have hleft := recordPos_add_three_le (hdec hp) hd
  obtain ⟨-, -, hk⟩ := hdec hp
  refine ⟨rfl, Nat.mod_eq_of_lt (by omega), ho, ?_, ?_⟩
  · show (s.r + 1).toNat = s.r.toNat + 1
    bv_omega
  · by_cases hr : s.r.toNat < s.cfg.dictCap
    · have hkr : s.k.toNat = s.r.toNat := by omega
      refine .inl ⟨by omega, href.trans_eq hkr.symm, ?_, ?_⟩
      · simp [hr, hkr]
      · simp only [State.appended_k, hr, if_true, BitVec.toNat_ofNat]
        omega
    · exact .inr ⟨by omega, by simp [hr], by simp [hr]⟩

/-- An engine update leaves OUT, DICT and their counters, or is one record's (R237). -/
theorem EngineUpdate.record_cases (h : EngineUpdate s t) (hs : s.Inv) :
    (t.outBuf = s.outBuf ∧ t.o = s.o ∧ t.dict = s.dict ∧ t.k = s.k ∧ t.r = s.r) ∨ ∃ e x, RecordEffect s t e x := by
  cases h with
  | emit sym hp ho hk => exact .inr ⟨_, _, recordEffect_emitted hs sym hp ho hk⟩
  | append ref sym base hp hd href ho => exact .inr ⟨_, _, recordEffect_appended hs sym hp hd href ho⟩
  | _ => exact .inl ⟨rfl, rfl, rfl, rfl, rfl⟩

/-- R25, R26, R60: an entry added at K + 1 with an earlier PARENT keeps the dictionary well formed. -/
theorem RecordEffect.dictOk {e : List Byte} {x : DictEntry} (h : RecordEffect s t e x) (hcfg : t.cfg = s.cfg)
    (hs : s.DictOk) : t.DictOk := by
  obtain ⟨hwf, hkeys, hk, hstored⟩ := hs
  rcases h.entry with ⟨hroom, hpar, hdict, hk'⟩ | ⟨-, hdict, hk'⟩
  · refine ⟨hdict ▸ Store.write_wf _ _ _ hwf, fun y hy => ?_, by rw [hcfg]; omega, fun j hj => ?_⟩
    · rw [hcfg]
      rcases Store.mem_write _ _ _ _ (hdict ▸ hy) with rfl | hy
      · exact ⟨Nat.le_add_left 1 _, hroom⟩
      · exact hkeys y hy
    · unfold State.entryStored
      rw [hdict, Store.read_write]
      split
      · simp
        omega
      · exact hstored j (by omega)
  · unfold State.DictOk State.entryStored
    rw [hdict, hk', hcfg]
    exact ⟨hwf, hkeys, hk, hstored⟩

/-- R60, R63: bytes appended at O within OUT_MAX keep the buffers well formed. -/
theorem RecordEffect.buffersOk {e : List Byte} {x : DictEntry} (h : RecordEffect s t e x) (hcfg : t.cfg = s.cfg)
    (hin : t.inBuf = s.inBuf) (hs : s.BuffersOk) : t.BuffersOk := by
  obtain ⟨hinWf, houtWf, hinKeys, houtKeys, -, hwritten⟩ := hs
  have ho := h.o
  have hroom := h.room
  unfold State.BuffersOk
  rw [hin, hcfg, h.outBuf]
  refine ⟨hinWf, writeBytes_wf _ _ _ houtWf, hinKeys, fun y hy => ?_, by omega, fun a ha => ?_⟩
  · rcases mem_writeBytes _ _ _ _ hy with hy | hy
    · omega
    · exact houtKeys y hy
  · rw [readByte_writeBytes]
    split
    · simp
      omega
    · exact hwritten a (by omega)

/-- R29, R63: a record changes no OUT byte below O or at or beyond the new O, and no entry up to K or above the new K. -/
theorem RecordEffect.frame {e : List Byte} {x : DictEntry} (h : RecordEffect s t e x) :
    (∀ a, a < s.o.toNat ∨ t.o.toNat ≤ a → readByte t.outBuf a = readByte s.outBuf a) ∧
    (∀ j, j ≤ s.k.toNat ∨ t.k.toNat < j → Store.read t.dict j = Store.read s.dict j) ∧
    s.o.toNat ≤ t.o.toNat ∧ s.k.toNat ≤ t.k.toNat ∧ s.r.toNat ≤ t.r.toNat := by
  have ho := h.o
  have hr := h.r
  refine ⟨fun a ha => ?_, fun j hj => ?_, by omega, ?_, by omega⟩
  · rw [h.outBuf, readByte_writeBytes, if_neg (by omega)]
  · rcases h.entry with ⟨-, -, hdict, hk⟩ | ⟨-, hdict, -⟩
    · rw [hdict, Store.read_write_other _ _ _ _ (by omega)]
    · rw [hdict]
  · rcases h.entry with ⟨-, -, -, hk⟩ | ⟨-, -, hk⟩
    · omega
    · rw [hk]

end Sys2Proof.Machine
end

section
/-! PROOFS. The invariant: it holds at reset, and every update of the engine, of the host and of reset keeps it. -/

namespace Sys2Proof.Machine

variable {s t : State}

theorem State.Inv.cfgValid (h : s.Inv) : s.cfg.valid := h.1

theorem State.Inv.dictOk (h : s.Inv) : s.DictOk := h.2.1

theorem State.Inv.buffersOk (h : s.Inv) : s.BuffersOk := h.2.2.1

theorem State.Inv.flagsOk (h : s.Inv) : s.FlagsOk := h.2.2.2.1

theorem State.Inv.encodeOk (h : s.Inv) : s.phase = .eBegin ∨ s.phase = .eSym → s.EncodeOk := h.2.2.2.2.1

/-! The draws, the turns, the host's program and the host's read data are no part of the invariant. -/

theorem State.Inv.tick (h : s.Inv) : s.tick.Inv := h

theorem State.Inv.popTurn (h : s.Inv) : s.popTurn.Inv := h

theorem State.Inv.popHost (h : s.Inv) : s.popHost.Inv := h

theorem State.Inv.respond (h : s.Inv) (d : BusData) : (s.respond d).Inv := h

/-- Settles O42: at reset the memories are empty, the counters 0 and PHASE IDLE. -/
theorem invariantHoldsAtReset : Obligations.InvariantHoldsAtReset := by
  intro c hc
  obtain ⟨hin, hout, hdict⟩ := resetWith_memories_wf c
  refine ⟨hc, ⟨hdict, nofun, Nat.zero_le _, nofun⟩, ⟨hin, hout, nofun, nofun, Nat.zero_le _, nofun⟩, ?_, ?_, nofun, nofun,
    nofun⟩
  · simp [State.FlagsOk, State.resetWith]
  · simp [State.resetWith]

theorem State.Inv.resetEvent (h : s.Inv) : s.resetEvent.Inv := invariantHoldsAtReset s.cfg h.1

/-- FIND answers an index up to K, 0 included (R124). -/
theorem find_toNat_le (s : State) (node : Index) (sym : Byte) : (find s node sym).toNat ≤ s.k.toNat := by
  unfold find
  split
  · rename_i j hj
    have hmem := List.mem_range'_1.1 (List.mem_of_find?_eq_some hj)
    exact (Nat.mod_le _ _).trans (by omega)
  · exact Nat.zero_le _

/-- R33, R34: while a command runs, moving from phase to phase keeps the flags well formed. -/
theorem State.FlagsOk.running (h : s.FlagsOk) (hp : s.phase ≠ .idle) {ph : Phase} (hph : ph ≠ .idle) :
    State.FlagsOk { s with phase := ph } := by
  obtain ⟨hbusy, hrest⟩ := h
  exact ⟨⟨fun _ => hph, fun _ => hbusy.2 hp⟩, hrest⟩

/-- R33, R34, R35: a command's end, with or without an error, keeps the flags well formed. -/
theorem State.FlagsOk.ended (h : s.FlagsOk) (e : ErrCode) (pos info : Word) : (s.raise e pos info).FlagsOk := by
  obtain ⟨-, -, -, hin, hn, -, -⟩ := h
  exact ⟨by simp, by simp, by simp, hin, hn, by simp, by simp⟩

theorem EngineUpdate.flagsOk (h : EngineUpdate s t) (hs : s.FlagsOk) : t.FlagsOk := by
  cases h with
  | complete => exact hs.ended .none s.errPos s.errInfo
  | raise e pos info => exact hs.ended e pos info
  | beginRecord hp => exact hs.running (by simp [hp]) nofun
  | extendMatch sym hp => exact hs
  | emit sym hp => exact hs.running (by simp [hp]) nofun
  | enterRecords hp => exact hs.running (by simp [hp]) nofun
  | append ref sym base hp => exact hs

theorem EngineUpdate.dictOk (h : EngineUpdate s t) (hs : s.Inv) : t.DictOk := by
  obtain ⟨hcfg, -⟩ := h.keeps
  rcases h.record_cases hs with ⟨-, -, hd, hk, -⟩ | ⟨e, x, hr⟩
  · unfold State.DictOk State.entryStored
    rw [hd, hk, hcfg]
    exact hs.dictOk
  · exact hr.dictOk hcfg hs.dictOk

theorem EngineUpdate.buffersOk (h : EngineUpdate s t) (hs : s.Inv) : t.BuffersOk := by
  obtain ⟨hcfg, -, -, -, -, -, -, -, hin⟩ := h.keeps
  rcases h.record_cases hs with ⟨hout, ho, -⟩ | ⟨e, x, hr⟩
  · unfold State.BuffersOk
    rw [hin, hout, ho, hcfg]
    exact hs.buffersOk
  · exact hr.buffersOk hcfg hin hs.buffersOk

/-- R132, R134: an emitted record consumes the symbol at P, counts 1 in R and in K, and takes 3 bytes of OUT. -/
theorem encodeOk_emitted (hs : s.Inv) (sym : Byte) (hp : s.phase = .eSym) (ho : s.o.toNat + 3 ≤ s.cfg.outMax)
    (hk : s.k.toNat < s.cfg.dictCap) : (s.emitted s.c sym).nextRecord.EncodeOk := by
  have hr := recordEffect_emitted hs sym hp ho hk
  obtain ⟨-, -, -, -, henc, hmatch, -, -⟩ := hs
  obtain ⟨-, ho', hk', hri⟩ := henc (.inr hp)
  obtain ⟨hip, hpn, -, -⟩ := hmatch hp
  have hi : (s.emitted s.c sym).nextRecord.i.toNat = s.p.toNat + 1 := by
    show (s.p + 1).toNat = s.p.toNat + 1
    bv_omega
  have hcount := hr.r
  refine ⟨hi.trans_le hpn, ?_, ?_, by omega⟩
  · rw [hr.o, hcount, ho']
    rfl
  · rcases hr.entry with ⟨-, -, -, hk⟩ | ⟨hfull, -⟩ <;> omega

theorem EngineUpdate.encodeOk (h : EngineUpdate s t) (hs : s.Inv) (ht : t.phase = .eBegin ∨ t.phase = .eSym) :
    t.EncodeOk := by
  have henc := hs.encodeOk
  cases h with
  | complete | raise | enterRecords => simp at ht
  | append ref sym base hp => simp [hp] at ht
  | beginRecord hp => exact henc (.inl hp)
  | extendMatch sym hp => exact henc (.inr hp)
  | emit sym hp ho hk => exact encodeOk_emitted hs sym hp ho hk

theorem EngineUpdate.matchOk (h : EngineUpdate s t) (hs : s.Inv) (ht : t.phase = .eSym) : t.MatchOk := by
  obtain ⟨-, hdict, -, -, henc, hmatch, -, -⟩ := hs
  obtain ⟨-, -, hcap, -⟩ := hdict
  cases h with
  | complete | raise | enterRecords | emit => simp at ht
  | append ref sym base hp => simp [hp] at ht
  | beginRecord hp hi hk =>
    obtain ⟨hin, -⟩ := henc (.inl hp)
    have hlt : s.i.toNat < s.n.toNat := lt_of_le_of_ne hin fun he => hi (BitVec.eq_of_toNat_eq he)
    exact ⟨le_rfl, hlt, Nat.zero_le _, lt_of_le_of_ne hcap hk⟩
  | extendMatch sym hp hl =>
    obtain ⟨hip, hpn, -, hk⟩ := hmatch hp
    have hne : s.p.toNat + 1 ≠ s.n.toNat := by simpa [State.atLastSymbol] using hl
    have hp' : (s.p + 1).toNat = s.p.toNat + 1 := by bv_omega
    refine ⟨?_, ?_, find_toNat_le s s.c sym, hk⟩
    · rw [State.extendMatch_p, hp']
      exact Nat.le_succ_of_le hip
    · rw [State.extendMatch_p, hp']
      exact lt_of_le_of_ne hpn hne

theorem EngineUpdate.decodeOk (h : EngineUpdate s t) (hs : s.Inv) (ht : t.phase = .dRec) : t.DecodeOk := by
  cases h with
  | complete | raise | beginRecord | emit => simp at ht
  | extendMatch sym hp => simp [hp] at ht
  | enterRecords hp hn =>
    obtain ⟨-, -, -, -, -, -, hbegin, -⟩ := hs
    obtain ⟨hr, hk, -⟩ := hbegin hp
    exact ⟨hn, by simp [State.recordPos, hr], by simp [hr, hk]⟩
  | append ref sym base hp hd href ho =>
    have hrec := recordEffect_appended hs sym hp hd href ho
    obtain ⟨-, -, -, -, -, -, -, hdec⟩ := hs
    have hleft := recordPos_add_three_le (hdec hp) hd
    obtain ⟨hmod, -, hk⟩ := hdec hp
    have hr := hrec.r
    refine ⟨hmod, by simp only [State.recordPos, hr, State.appended_n]; omega, ?_⟩
    rw [hr, State.appended_cfg]
    rcases hrec.entry with ⟨hroom, -, -, hk'⟩ | ⟨hfull, -, hk'⟩ <;> rw [hk'] <;> omega

theorem EngineUpdate.phase_ne_dBegin (h : EngineUpdate s t) : t.phase ≠ .dBegin := by
  cases h with
  | extendMatch sym hp => simp [hp]
  | append ref sym base hp => simp [hp]
  | _ => simp

/-- An update of the running engine keeps the invariant. -/
theorem EngineUpdate.inv (h : EngineUpdate s t) (hs : s.Inv) : t.Inv := by
  obtain ⟨hcfg, -⟩ := h.keeps
  refine ⟨hcfg ▸ hs.cfgValid, h.dictOk hs, h.buffersOk hs, h.flagsOk hs.flagsOk, h.encodeOk hs, h.matchOk hs,
    fun hd => absurd hd h.phase_ne_dBegin, h.decodeOk hs⟩

/-- R76, R277: a read keeps the invariant; one that shows DONE = 1 comes after the command's end. -/
theorem State.Inv.respondReg (h : s.Inv) (reg : HostReg) : (s.respondReg reg).Inv := by
  obtain ⟨hcfg, hdict, hbuf, ⟨hbusy, hexcl, herr, hin, hn, hrun, hunseen⟩, hphases⟩ := h
  refine ⟨hcfg, hdict, hbuf, ⟨hbusy, hexcl, herr, hin, hn, fun hb => ?_, fun hu => hunseen ?_⟩, hphases⟩
  · have hnd : s.done = false := by simpa using fun hd => hexcl ⟨hb, hd⟩
    have hns : s.showsDone reg = false := by
      cases reg with
      | status => exact hnd
      | _ => rfl
    simpa [hns] using hrun hb
  · exact (Bool.and_eq_true_iff.1 hu).1

/-- R219: a byte write at an existing IN offset. -/
theorem State.Inv.storeIn (h : s.Inv) {a : Nat} (ha : a < s.cfg.inMax) (v : Byte) : (s.storeIn a v).Inv := by
  obtain ⟨hcfg, hdict, ⟨hinWf, houtWf, hinKeys, hout⟩, hrest⟩ := h
  refine ⟨hcfg, hdict, ⟨writeByte_wf _ _ _ hinWf, houtWf, fun x hx => ?_, hout⟩, hrest⟩
  rcases Store.mem_write _ _ _ _ hx with rfl | hx
  · exact ha
  · exact hinKeys x hx

/-- R216: an IN_LEN within IN_MAX. -/
theorem State.Inv.storeInLen (h : s.Inv) {v : Word} (hv : v.toNat ≤ s.cfg.inMax) : (s.storeInLen v).Inv := by
  obtain ⟨hcfg, hdict, hbuf, ⟨hbusy, hexcl, herr, -, hflags⟩, hphases⟩ := h
  exact ⟨hcfg, hdict, hbuf, ⟨hbusy, hexcl, herr, hv, hflags⟩, hphases⟩

/-- R217: a start clears the counters, so that no entry and no OUT byte is claimed, and latches N from IN_LEN. -/
theorem State.Inv.start (h : s.Inv) {ph : Phase} (hph : ph = .eBegin ∨ ph = .dBegin) : (s.start ph).Inv := by
  obtain ⟨hcfg, ⟨hdictWf, hdictKeys, -, -⟩, ⟨hinWf, houtWf, hinKeys, houtKeys, -, -⟩, ⟨-, -, -, hin, -, -, -⟩, -⟩ := h
  refine ⟨hcfg, ⟨hdictWf, hdictKeys, Nat.zero_le _, nofun⟩,
    ⟨hinWf, houtWf, hinKeys, houtKeys, Nat.zero_le _, nofun⟩,
    ⟨?_, by simp, by simp, hin, hin, by simp, by simp⟩, ?_⟩
  · rcases hph with rfl | rfl <;> simp
  · rcases hph with rfl | rfl <;> simp [State.EncodeOk]

/-- An update of the host's keeps the invariant. -/
theorem HostUpdate.inv (h : HostUpdate s t) (hs : s.Inv) : t.Inv := by
  cases h with
  | ended => exact hs
  | pollAgain => exact hs.respondReg .status
  | read d => exact hs.popHost.respond d
  | readReg reg => exact hs.popHost.respondReg reg
  | ignored => exact hs.popHost.tick
  | storeIn addr off v rest _ hloc => exact hs.popHost.tick.storeIn (locate_inp hloc) v
  | start ph hph => exact hs.popHost.tick.start hph
  | storeInLen v _ hv => exact hs.popHost.tick.storeInLen hv

/-- Settles O43, by the update the step applies. -/
theorem stepKeepsTheInvariant : Obligations.StepKeepsTheInvariant := by
  intro s t hs h
  rcases step_updates h with ⟨-, -, rfl⟩ | ⟨-, hu⟩ | ⟨-, hu⟩ | ⟨-, rfl⟩
  · exact hs.popTurn
  · exact hu.inv hs.popTurn.tick
  · exact hu.inv hs.popTurn
  · exact hs.popTurn.resetEvent

end Sys2Proof.Machine
end

section
/-! PROOFS. What a step leaves unchanged: the parameters, the engine step's frame, the results of a command that has ended, and
what reset leaves. -/

namespace Sys2Proof.Machine

variable {s t : State}

/-- Settles O44: no update writes the parameters, and reset keeps them. -/
theorem parametersNeverChange : Obligations.ParametersNeverChange := by
  intro s t h
  rcases step_updates h with ⟨-, -, rfl⟩ | ⟨-, hu⟩ | ⟨-, hu⟩ | ⟨-, rfl⟩
  · rfl
  · exact hu.keeps.1
  · exact hu.cfg_eq
  · rfl

/-- R29, R63, R237: the bytes of OUT and the entries of DICT an engine update leaves, and the counters that never fall. -/
theorem EngineUpdate.frame (h : EngineUpdate s t) (hs : s.Inv) :
    (∀ a, a < s.o.toNat ∨ t.o.toNat ≤ a → readByte t.outBuf a = readByte s.outBuf a) ∧
    (∀ j, j ≤ s.k.toNat ∨ t.k.toNat < j → Store.read t.dict j = Store.read s.dict j) ∧
    s.o.toNat ≤ t.o.toNat ∧ s.k.toNat ≤ t.k.toNat ∧ s.r.toNat ≤ t.r.toNat := by
  rcases h.record_cases hs with ⟨hout, ho, hd, hk, hr⟩ | ⟨e, x, hrec⟩
  · rw [hout, ho, hd, hk, hr]
    exact ⟨fun _ _ => rfl, fun _ _ => rfl, le_rfl, le_rfl, le_rfl⟩
  · exact hrec.frame

/-- Settles O45: an idle engine changes nothing, and a running one's update has the frame of at most one record. -/
theorem engineStepFrame : Obligations.EngineStepFrame := by
  intro s t hs h
  rcases engineUpdate_of_engineStep h with ⟨-, rfl⟩ | hu
  · exact ⟨rfl, rfl, rfl, rfl, rfl, rfl, rfl, rfl, fun _ => rfl, fun _ _ => rfl, fun _ _ => rfl, le_rfl, le_rfl, le_rfl⟩
  · obtain ⟨hcfg, hlen, hn, hhost, hturns, hrdata, htaint, hunseen, hin⟩ := hu.keeps
    exact ⟨hcfg, hlen, hn, hhost, hturns, hrdata, htaint, hunseen, fun a => by rw [hin]; rfl, hu.frame hs.tick⟩

/-- R34, R76: a host update that starts no command keeps DONE, ERR, the error record, the counters and OUT. -/
theorem HostUpdate.keeps_results (h : HostUpdate s t) (hb : t.busy = false) :
    t.done = s.done ∧ t.err = s.err ∧ t.errPos = s.errPos ∧ t.errInfo = s.errInfo ∧ t.o = s.o ∧ t.r = s.r ∧ t.k = s.k ∧
    t.outBuf = s.outBuf := by
  cases h with
  | start => simp at hb
  | _ => exact ⟨rfl, rfl, rfl, rfl, rfl, rfl, rfl, rfl⟩

/-- R76, R277: a host update that starts no command does not take back what the host has seen. -/
theorem HostUpdate.doneUnseen_eq_false (h : HostUpdate s t) (hb : t.busy = false) (hu : s.doneUnseen = false) :
    t.doneUnseen = false := by
  cases h with
  | start => simp at hb
  | _ => simp [hu]

/-- R80, R276: a host update that starts no command changes whether the results are draws only as a byte write of IN that comes
where R276 forbids it. -/
theorem HostUpdate.tainted_cases (h : HostUpdate s t) (hb : t.busy = false) :
    t.tainted = s.tainted ∨
    (s.doneUnseen = true ∧ ∃ addr v rest a,
      (s.host = .access (.wr8 addr v) :: rest ∨ (s.host = .writeRead addr :: rest ∧ s.rdata = some (.byte v))) ∧
      locate s.cfg addr = some (.inp, a) ∧
      t = { s with host := rest, epoch := s.epoch + 1, inBuf := writeByte s.inBuf a v, tainted := true }) := by
  cases h with
  | start => simp at hb
  | storeIn addr off v rest hop hloc =>
    cases hu : s.doneUnseen with
    | false =>
      left
      have hb' : s.busy = false := hb
      simp [State.inWriteForbidden, hb', hu]
    | true =>
      have htail : s.host.tail = rest := by rcases hop with hh | ⟨hh, -⟩ <;> rw [hh] <;> rfl
      refine .inr ⟨rfl, addr, v, rest, off, hop, hloc, ?_⟩
      simp [State.storeIn, State.tick, State.popHost, State.inWriteForbidden, hu, htail]
  | _ => exact .inl rfl

/-- R33: once DONE is 1 the engine is idle. -/
theorem State.Inv.idle_of_done (h : s.Inv) (hd : s.done = true) : s.phase = .idle := by
  obtain ⟨hbusy, hexcl, -⟩ := h.flagsOk
  by_contra hp
  exact hexcl ⟨hbusy.2 hp, hd⟩

/-- Settles O29: the engine is idle, so that the step is its empty turn or an update of the host's that starts no command. -/
theorem errorIsSticky : Obligations.ErrorIsSticky := by
  intro s t hs hd hreset h hb
  have hidle := hs.idle_of_done hd
  rcases step_updates h with ⟨-, -, rfl⟩ | ⟨-, hu⟩ | ⟨hn, hu⟩ | ⟨hn, -⟩
  · exact ⟨hd, rfl, rfl, rfl, rfl, rfl, rfl, fun _ => rfl, fun hs => ⟨rfl, hs⟩, fun hne => absurd rfl hne⟩
  · exact absurd hidle hu.running
  · obtain ⟨hdone, herr, hpos, hinfo, ho, hr, hk, hout⟩ := hu.keeps_results hb
    refine ⟨hdone.trans hd, herr, hpos, hinfo, ho, hr, hk, fun a => by rw [hout]; rfl, fun hseen => ?_, fun hne => ?_⟩
    · refine ⟨(hu.tainted_cases hb).resolve_right ?_, hu.doneUnseen_eq_false hb hseen⟩
      rintro ⟨hunseen, -⟩
      exact absurd (hseen.symm.trans hunseen) nofun
    · obtain ⟨hunseen, hw⟩ := (hu.tainted_cases hb).resolve_left hne
      exact ⟨hunseen, hn, hw⟩
  · exact absurd hn hreset

/-- R47: after reset every register reads 0, whatever the fields that are no state of LZ78E hold (log 20). -/
theorem readReg_reset (c : Params) (epoch : Nat) (host : List HostOp) (turns : List Turn) (rdata : Option BusData)
    (reg : HostReg) :
    readReg { State.resetWith c with epoch := epoch, host := host, turns := turns, rdata := rdata } reg = 0#32 := by
  cases reg with
  | status =>
    have hstatus : statusOf false false .none = 0#32 := by decide
    exact hstatus
  | _ => rfl

/-- Settles O40: the fields by the reset values of R47, the registers by `readReg_reset`. -/
theorem resetLeaves : Obligations.ResetLeaves := by
  refine ⟨fun s hn => ⟨s.popTurn.resetEvent, ?_, rfl, rfl, rfl, rfl, rfl, rfl, rfl, rfl, rfl, readReg_reset _ _ _ _ _,
      fun _ => rfl⟩,
    rfl, rfl, rfl, rfl, rfl, rfl, rfl, rfl, readReg_reset _ _ _ _ _, fun _ => rfl⟩
  rw [step, hn]

end Sys2Proof.Machine
end

section
/-! PROOFS. The fields of STATUS, and the values the invariant leaves it. -/

namespace Sys2Proof.Machine

/-- R32: STATUS is BUSY, DONE and ERR side by side below 27 zero bits. -/
theorem statusOf_fields (busy done : Bool) (err : ErrCode) :
    (statusOf busy done err).getLsbD 0 = busy ∧ (statusOf busy done err).getLsbD 1 = done ∧
    (statusOf busy done err).extractLsb' 2 3 = errBits err ∧ (statusOf busy done err).extractLsb' 5 27 = 0#27 := by
  cases busy <;> cases done <;> cases err <;> decide

/-- R32, R35: with BUSY and DONE not both 1, and no error before DONE, STATUS has seven values. -/
theorem statusOf_mem {busy done : Bool} {err : ErrCode} (hexcl : ¬ (busy = true ∧ done = true))
    (herr : done = false → err = .none) :
    statusOf busy done err ∈ [0x00#32, 0x01#32, 0x02#32, 0x06#32, 0x0A#32, 0x0E#32, 0x12#32] := by
  cases done with
  | false =>
    cases herr rfl
    cases busy <;> decide
  | true =>
    have hb : busy = false := by simpa using hexcl
    subst hb
    cases err <;> decide

/-- Settles O28, from the flags the invariant admits. -/
theorem statusWordFields : Obligations.StatusWordFields := by
  intro s hs
  obtain ⟨-, hexcl, herr, -⟩ := hs.flagsOk
  obtain ⟨hbusy, hdone, hcode, hzero⟩ := statusOf_fields s.busy s.done s.err
  exact ⟨hbusy, hdone, hcode, hzero, hexcl, statusOf_mem hexcl fun hd => (herr hd).1⟩

end Sys2Proof.Machine
end

section
/-! PROOFS. STR in a well-formed dictionary: the chain of an entry ends within as many steps as its index, whatever fuel is left
over. -/

namespace Sys2Proof.Machine

variable {s : State}

/-- R25, R26: a valid entry is stored, with an earlier PARENT. -/
theorem State.DictOk.entry (h : s.DictOk) {j : Nat} (h1 : 1 ≤ j) (hk : j ≤ s.k.toNat) :
    ∃ e, s.entry j = some e ∧ e.parent.toNat < j := by
  obtain ⟨-, -, -, hstored⟩ := h
  have hj : s.entryStored (j - 1 + 1) := hstored (j - 1) (by omega)
  rw [Nat.sub_add_cancel h1] at hj
  rw [State.entryStored, Option.any_eq_true] at hj
  obtain ⟨e, he, hlt⟩ := hj
  exact ⟨e, by rw [State.entry, if_pos ⟨h1, hk⟩, he], by simpa using hlt⟩

/-- R28: one step of STR's recursion. -/
theorem entryString_succ {fuel j : Nat} {e : DictEntry} (h : s.entry j = some e) :
    entryString s (fuel + 1) j =
      if e.parent = 0 then some [e.sym] else (entryString s fuel e.parent.toNat).map (· ++ [e.sym]) := by
  rw [entryString, h]

/-- R26, R28: a valid entry `j` has one string, of at most `j` symbols, for every fuel from `j` on; by induction on `j`, the
PARENT being an earlier entry. -/
theorem exists_entryString (h : s.DictOk) (j : Nat) (h1 : 1 ≤ j) (hk : j ≤ s.k.toNat) :
    ∃ x : List Byte, x.length ≤ j ∧ ∀ fuel, j ≤ fuel → entryString s fuel j = some x := by
  induction j using Nat.strong_induction_on with
  | _ j ih =>
    obtain ⟨e, he, hlt⟩ := h.entry h1 hk
    by_cases hp : e.parent = 0
    · refine ⟨[e.sym], h1, fun fuel hf => ?_⟩
      obtain ⟨fuel, rfl⟩ := Nat.exists_eq_add_of_le' (h1.trans hf)
      rw [entryString_succ he, if_pos hp]
    · have hp1 : 1 ≤ e.parent.toNat := by bv_omega
      obtain ⟨x, hlen, hx⟩ := ih _ hlt hp1 (hlt.le.trans hk)
      refine ⟨x ++ [e.sym], by simp; omega, fun fuel hf => ?_⟩
      obtain ⟨fuel, rfl⟩ := Nat.exists_eq_add_of_le' (h1.trans hf)
      rw [entryString_succ he, if_neg hp, hx fuel (by omega)]
      rfl

/-- Settles O24: one step of the recursion, the PARENT's string being the same with the fuel that is left as with its own. -/
theorem stringOfAnEntry : Obligations.StringOfAnEntry := by
  intro s j e h h1 hk hread
  have he : s.entry j = some e := by rw [State.entry, if_pos ⟨h1, hk⟩, hread]
  obtain ⟨e', he', hlt⟩ := h.entry h1 hk
  cases he.symm.trans he'
  obtain ⟨fuel, rfl⟩ := Nat.exists_eq_add_of_le' h1
  have hstr : str s (fuel + 1) = _ := entryString_succ he
  rw [hstr]
  by_cases hp : e.parent = 0
  · exact ⟨[], by rw [if_pos hp], by rw [if_pos hp]; rfl, h1⟩
  · have hp1 : 1 ≤ e.parent.toNat := by bv_omega
    obtain ⟨x, hlen, hx⟩ := exists_entryString h _ hp1 (hlt.le.trans hk)
    refine ⟨x, by rw [if_neg hp, str, hx _ le_rfl], ?_, by omega⟩
    rw [if_neg hp, hx fuel (by omega)]
    rfl

end Sys2Proof.Machine
end

section
/-! PROOFS. Host accesses: where each kind is refused, the effect of one that answers a next state, with the address it is made
at, and what that effect leaves unchanged. -/

namespace Sys2Proof.Machine

variable {s t : State}

/-- R66, R238: an access of any kind at an address in no window is refused (log 12). -/
theorem hostAccess_of_locate_none {a : Nat} (h : locate s.cfg a = none) (v : Word) (b : Byte) (wd : OtherWidth) :
    ∀ x ∈ [Access.rd32 a, .wr32 a v, .rd8 a, .wr8 a b, .rdOther wd a, .wrOther wd a],
      hostAccess x s = .refused (.outsideWindows a) := by
  simp [hostAccess, h]

/-- Settles O37: `locate` finds no window. -/
theorem accessesOutsideTheWindowsAreRefused : Obligations.AccessesOutsideTheWindowsAreRefused := by
  intro s a v b wd hreg hin hout
  have hloc : locate s.cfg a = none := by rw [locate, if_neg hreg, if_neg hin, if_neg hout]
  exact hostAccess_of_locate_none hloc v b wd

/-- R30: a register lies at a multiple of 4 only. -/
theorem regAt_of_misaligned {off : Nat} (h : off % 4 ≠ 0) : regAt off = none := by
  refine Option.eq_none_iff_forall_ne_some.2 fun reg hreg => h ?_
  rw [eq_of_regAt hreg]
  cases reg <;> rfl

/-- R69: in the REG window a 32-bit access at no register is refused. -/
theorem hostAccess_of_regAt_none {addr off : Nat} (hloc : locate s.cfg addr = some (.reg, off)) (hreg : regAt off = none)
    (v : Word) :
    hostAccess (.rd32 addr) s = .refused (.misaligned addr) ∧
    hostAccess (.wr32 addr v) s = .refused (.misaligned addr) := by
  simp [hostAccess, hloc, hreg]

/-- R69: the REG window admits no byte access. -/
theorem hostAccess_byte_of_locate_reg {addr off : Nat} (hloc : locate s.cfg addr = some (.reg, off)) (b : Byte) :
    hostAccess (.rd8 addr) s = .refused (.wrongWidth addr) ∧
    hostAccess (.wr8 addr b) s = .refused (.wrongWidth addr) := by
  simp [hostAccess, hloc]

/-- R69: no window admits an access of another width. -/
theorem hostAccess_other_of_locate {addr : Nat} {w : Window × Nat} (hloc : locate s.cfg addr = some w) (wd : OtherWidth) :
    hostAccess (.rdOther wd addr) s = .refused (.wrongWidth addr) ∧
    hostAccess (.wrOther wd addr) s = .refused (.wrongWidth addr) := by
  simp [hostAccess, hloc]

/-- R69: the IN and OUT windows admit no 32-bit access. -/
theorem hostAccess_word_of_locate {addr off : Nat} {w : Window} (hloc : locate s.cfg addr = some (w, off)) (hw : w ≠ .reg)
    (v : Word) :
    hostAccess (.rd32 addr) s = .refused (.wrongWidth addr) ∧
    hostAccess (.wr32 addr v) s = .refused (.wrongWidth addr) := by
  cases w with
  | reg => exact absurd rfl hw
  | inp | out => simp [hostAccess, hloc]

/-- R63: the host does not write OUT. -/
theorem hostAccess_wr8_of_locate_out {addr off : Nat} (hloc : locate s.cfg addr = some (.out, off)) (b : Byte) :
    hostAccess (.wr8 addr b) s = .refused (.outIsReadOnly addr) := by
  simp [hostAccess, hloc]

/-- R30: the host writes CTRL and IN_LEN only. -/
theorem writeReg_readOnly {reg : HostReg} (hctrl : reg ≠ .ctrl) (hlen : reg ≠ .inLen) (v : Word) (s : State) :
    writeReg reg v s = .refused (.readOnlyRegister reg) := by
  cases reg with
  | ctrl => exact absurd rfl hctrl
  | inLen => exact absurd rfl hlen
  | _ => rfl

/-- Settles O36, window by window. -/
theorem forbiddenAccessesAreRefused : Obligations.ForbiddenAccessesAreRefused := by
  intro s a v b wd hv
  refine ⟨fun ha h4 => hostAccess_of_regAt_none (locate_reg s.cfg ha) (regAt_of_misaligned h4) v, fun ha => ?_,
    fun reg hctrl hlen => ?_, fun ha => ?_, fun ha => ?_⟩
  · have hloc := locate_reg s.cfg ha
    obtain ⟨hrd, hwr⟩ := hostAccess_byte_of_locate_reg hloc b
    exact ⟨hrd, hwr, hostAccess_other_of_locate hloc wd⟩
  · rw [hostAccess_wr, writeReg_readOnly hctrl hlen]
  · have hloc := locate_in s.cfg hv ha
    obtain ⟨hrd, hwr⟩ := hostAccess_word_of_locate hloc nofun v
    exact ⟨hrd, hwr, hostAccess_other_of_locate hloc wd⟩
  · have hloc := locate_out s.cfg hv ha
    obtain ⟨hrd, hwr⟩ := hostAccess_word_of_locate hloc nofun v
    exact ⟨hostAccess_wr8_of_locate_out hloc b, hrd, hwr, hostAccess_other_of_locate hloc wd⟩

/-- The effect of a host access that answers a next state, with the address it is made at (R69, R210 to R220). -/
inductive AccessEffect (s : State) : Access → State → Prop where
  /-- A register read (R218). -/
  | readReg (reg : HostReg) : AccessEffect s (.rd32 (s.cfg.regBase + regOffset reg)) (s.respondReg reg)
  /-- A byte read of IN (R219). -/
  | readIn (addr off : Nat) (hloc : locate s.cfg addr = some (.inp, off)) :
      AccessEffect s (.rd8 addr) (s.respond (.byte (hostReadIn s off)))
  /-- A byte read of OUT (R220). -/
  | readOut (addr off : Nat) (hloc : locate s.cfg addr = some (.out, off)) :
      AccessEffect s (.rd8 addr) (s.respond (.byte (hostReadOut s off)))
  /-- NOP, or a register write ignored while busy (R211, R215, R216). -/
  | ignored (addr : Nat) (v : Word) : AccessEffect s (.wr32 addr v) s
  /-- A command start (R217). -/
  | start (ph : Phase) (v : Word) : AccessEffect s (.wr32 (s.cfg.regBase + regOffset .ctrl) v) (s.start ph)
  /-- An IN_LEN write that takes effect (R216). -/
  | storeInLen (v : Word) : AccessEffect s (.wr32 (s.cfg.regBase + regOffset .inLen) v) (s.storeInLen v)
  /-- A byte write of IN (R219). -/
  | storeIn (addr off : Nat) (v : Byte) (hloc : locate s.cfg addr = some (.inp, off)) :
      AccessEffect s (.wr8 addr v) (s.storeIn off v)

/-- R216: an IN_LEN write that answers a next state is ignored or stored. -/
theorem writeInLen_cases {v : Word} (h : writeInLen v s = .next t) : t = s ∨ t = s.storeInLen v := by
  unfold writeInLen at h
  split at h
  · cases h
  · split at h
    · exact .inl (Host.Outcome.next.inj h).symm
    · exact .inr (Host.Outcome.next.inj h).symm

/-- R30: the effect of a register write, at that register's address. -/
theorem accessEffect_of_writeReg {reg : HostReg} {v : Word} (h : writeReg reg v s = .next t) :
    AccessEffect s (.wr32 (s.cfg.regBase + regOffset reg) v) t := by
  cases reg with
  | ctrl =>
    rcases writeCtrl_cases h with rfl | ⟨-, rfl | rfl⟩
    · exact .ignored _ v
    · exact .start _ v
    · exact .start _ v
  | inLen =>
    rcases writeInLen_cases h with rfl | rfl
    · exact .ignored _ v
    · exact .storeInLen v
  | _ => cases h

/-- R69: a host access that answers a next state has one of the effects of `AccessEffect`. -/
theorem accessEffect_of_hostAccess {x : Access} (h : hostAccess x s = .next t) : AccessEffect s x t := by
  cases x with
  | rd32 addr =>
    simp only [hostAccess] at h
    split at h
    · rename_i off hloc
      split at h
      · rename_i reg hreg
        cases h
        rw [eq_of_locate_reg hloc, eq_of_regAt hreg]
        exact .readReg reg
      · cases h
    · cases h
    · cases h
  | wr32 addr v =>
    simp only [hostAccess] at h
    split at h
    · rename_i off hloc
      split at h
      · rename_i reg hreg
        rw [eq_of_locate_reg hloc, eq_of_regAt hreg]
        exact accessEffect_of_writeReg h
      · cases h
    · cases h
    · cases h
  | rd8 addr =>
    simp only [hostAccess] at h
    split at h <;> cases h
    · exact .readIn addr _ ‹_›
    · exact .readOut addr _ ‹_›
  | wr8 addr v =>
    simp only [hostAccess] at h
    split at h <;> cases h
    exact .storeIn addr _ v ‹_›
  | rdOther wd addr | wrOther wd addr =>
    simp only [hostAccess] at h
    split at h <;> cases h

/-- R72, R218: a register reads the same again; a STATUS read, the one that changes what the host has seen, is of a register
that is no result. -/
theorem readReg_respondReg (s : State) (reg : HostReg) : readReg (s.respondReg reg) reg = readReg s reg := by
  cases reg with
  | ctrl | status | inLen => rfl
  | _ => simp [readReg, State.unspecified, State.showsDone, drawFor, regContents]

theorem respondReg_respondReg (s : State) (reg : HostReg) : (s.respondReg reg).respondReg reg = s.respondReg reg := by
  have hseen : (s.respondReg reg).showsDone reg = s.showsDone reg := by cases reg <;> rfl
  rw [State.respondReg, readReg_respondReg, hseen, State.respondReg_doneUnseen, Bool.and_assoc, Bool.and_self]
  rfl

/-- R76: only a STATUS read that shows DONE = 1 changes what the host has seen. -/
theorem respondReg_doneUnseen_eq {reg : HostReg} (h : reg ≠ .status ∨ s.done = false) :
    (s.respondReg reg).doneUnseen = s.doneUnseen := by
  have hshows : s.showsDone reg = false := by
    cases reg with
    | status => exact h.resolve_left (· rfl)
    | _ => rfl
  rw [State.respondReg_doneUnseen, hshows, Bool.not_false, Bool.and_true]

/-- Settles O32, read by read. -/
theorem readsHaveNoSideEffect : Obligations.ReadsHaveNoSideEffect := by
  intro s t a hr h
  cases accessEffect_of_hostAccess h with
  | readReg reg =>
    exact ⟨rfl, (hostAccess_rd reg (s.respondReg reg)).trans (by rw [respondReg_respondReg]),
      fun hne => respondReg_doneUnseen_eq (hne.imp_left fun hne he => hne (by rw [he]))⟩
  | readIn addr off hloc => exact ⟨rfl, by simp only [hostAccess, State.respond_cfg, hloc]; rfl, fun _ => rfl⟩
  | readOut addr off hloc => exact ⟨rfl, by simp only [hostAccess, State.respond_cfg, hloc]; rfl, fun _ => rfl⟩
  | ignored | start | storeInLen | storeIn => exact absurd hr nofun

/-- R20, R63, R64: no host access writes the parameters, OUT or DICT, and none takes a turn, an operation or a draw. -/
theorem AccessEffect.keeps {x : Access} (h : AccessEffect s x t) :
    t.cfg = s.cfg ∧ t.epoch = s.epoch ∧ t.host = s.host ∧ t.turns = s.turns ∧ t.outBuf = s.outBuf ∧ t.dict = s.dict := by
  cases h <;> exact ⟨rfl, rfl, rfl, rfl, rfl, rfl⟩

/-- R219: a byte write stores to the one IN byte its address locates. -/
theorem AccessEffect.readByte_inBuf {addr off a : Nat} {v : Byte} (h : AccessEffect s (.wr8 addr v) t)
    (hloc : locate s.cfg addr = some (.inp, off)) (ha : a ≠ off) : readByte t.inBuf a = readByte s.inBuf a := by
  cases h with
  | storeIn _ off' _ hloc' =>
    cases hloc.symm.trans hloc'
    rw [State.storeIn_inBuf, readByte_writeByte, if_neg ha]

/-- R62: no other access writes IN. -/
theorem AccessEffect.inBuf_eq {x : Access} (h : AccessEffect s x t) (hx : ∀ addr v, x ≠ .wr8 addr v) :
    t.inBuf = s.inBuf := by
  cases h with
  | storeIn addr off v => exact absurd rfl (hx addr v)
  | _ => rfl

/-- R44, R72, R210: the engine's registers, the flags and the error record change at a CTRL write only. -/
theorem AccessEffect.engine_eq {x : Access} (h : AccessEffect s x t)
    (hx : ∀ v, x ≠ .wr32 (s.cfg.regBase + regOffset .ctrl) v) :
    t.phase = s.phase ∧ t.n = s.n ∧ t.i = s.i ∧ t.p = s.p ∧ t.c = s.c ∧ t.k = s.k ∧ t.r = s.r ∧ t.o = s.o ∧
    t.busy = s.busy ∧ t.done = s.done ∧ t.err = s.err ∧ t.errPos = s.errPos ∧ t.errInfo = s.errInfo := by
  cases h with
  | start ph v => exact absurd rfl (hx v)
  | _ => exact ⟨rfl, rfl, rfl, rfl, rfl, rfl, rfl, rfl, rfl, rfl, rfl, rfl, rfl⟩

/-- R80, R276: the mark of log 6 is set by an IN write where it is forbidden, and cleared by a start. -/
theorem AccessEffect.tainted_eq {x : Access} (h : AccessEffect s x t)
    (hctrl : ∀ v, x ≠ .wr32 (s.cfg.regBase + regOffset .ctrl) v)
    (hx : (∀ addr v, x ≠ .wr8 addr v) ∨ s.busy = false ∧ s.doneUnseen = false) : t.tainted = s.tainted := by
  cases h with
  | start ph v => exact absurd rfl (hctrl v)
  | storeIn addr off v =>
    obtain ⟨hb, hu⟩ := hx.resolve_left fun hne => hne addr v rfl
    simp [State.inWriteForbidden, hb, hu]
  | _ => rfl

/-- R277: the mark of log 27 is set by a start, and cleared by a STATUS read. -/
theorem AccessEffect.doneUnseen_eq {x : Access} (h : AccessEffect s x t)
    (hctrl : ∀ v, x ≠ .wr32 (s.cfg.regBase + regOffset .ctrl) v)
    (hx : x ≠ .rd32 (s.cfg.regBase + regOffset .status)) : t.doneUnseen = s.doneUnseen := by
  cases h with
  | readReg reg => exact respondReg_doneUnseen_eq (.inl fun he => hx (by rw [he]))
  | start ph v => exact absurd rfl (hctrl v)
  | _ => rfl

/-- R216: IN_LEN changes at its own write only. -/
theorem AccessEffect.inLen_eq {x : Access} (h : AccessEffect s x t)
    (hx : ∀ v, x ≠ .wr32 (s.cfg.regBase + regOffset .inLen) v) : t.inLen = s.inLen := by
  cases h with
  | storeInLen v => exact absurd rfl (hx v)
  | _ => rfl

/-- Log 15: a write returns nothing to the host. -/
theorem AccessEffect.rdata_eq {x : Access} (h : AccessEffect s x t) (hx : x.isRead = false) : t.rdata = s.rdata := by
  cases h with
  | readReg | readIn | readOut => cases hx
  | _ => rfl

/-- Settles O38, from what the effect of an access leaves. -/
theorem hostAccessFrame : Obligations.HostAccessFrame := by
  intro s t x h
  have he := accessEffect_of_hostAccess h
  obtain ⟨hcfg, hepoch, hhost, hturns, hout, hdict⟩ := he.keeps
  refine ⟨hcfg, hepoch, hhost, hturns, fun a => by rw [hout], fun j => by rw [hdict], ?_, fun hx a => by rw [he.inBuf_eq hx],
    fun hctrl => ?_, he.inLen_eq, he.rdata_eq⟩
  · rintro addr v off rfl hloc a ha
    exact he.readByte_inBuf hloc ha
  · obtain ⟨hphase, hn, hi, hp, hc, hk, hr, ho, hbusy, hdone, herr, hpos, hinfo⟩ := he.engine_eq hctrl
    exact ⟨hphase, hn, hi, hp, hc, hk, hr, ho, hbusy, hdone, herr, hpos, hinfo, he.tainted_eq hctrl, he.doneUnseen_eq hctrl⟩

end Sys2Proof.Machine
end

section
/-! PROOFS. The host's turn: one equation per operation at the head of the host's program, and `step` at a turn of the host. -/

namespace Sys2Proof.Machine

variable (s : State) {rest : List HostOp}

/-- R14, R74: a turn of the host is taken off the list, and then the host steps. -/
theorem step_of_hostTurn {s : State} (h : s.nextTurn = .host) : step s = hostStep s.popTurn := by
  rw [step, h]

theorem hostStep_of_nil (h : s.host = []) : hostStep s = .next s := by
  rw [hostStep, h]

theorem popHost_of_cons {s : State} {op : HostOp} (h : s.host = op :: rest) : s.popHost = { s with host := rest } := by
  rw [State.popHost, h, List.tail_cons]

/-- R72: a write access renews the draws. -/
theorem hostStep_of_write {x : Access} (h : s.host = .access x :: rest) (hx : x.isRead = false) :
    hostStep s = hostAccess x { s with host := rest, epoch := s.epoch + 1 } := by
  simp only [hostStep, h, accessStep, hx, popHost_of_cons h]
  rfl

/-- R72: a read access does not renew the draws. -/
theorem hostStep_of_read {x : Access} (h : s.host = .access x :: rest) (hx : x.isRead = true) :
    hostStep s = hostAccess x { s with host := rest } := by
  simp only [hostStep, h, accessStep, hx, popHost_of_cons h]
  rfl

/-- R104: POLL reads STATUS and stays while BUSY is 1. -/
theorem hostStep_of_poll_busy (h : s.host = .poll :: rest) (hb : s.busy = true) :
    hostStep s = .next (s.respondReg .status) := by
  simp only [hostStep, h, pollStep_eq, hb]
  rfl

/-- R104: POLL ends with the STATUS read that shows BUSY = 0. -/
theorem hostStep_of_poll_idle (h : s.host = .poll :: rest) (hb : s.busy = false) :
    hostStep s = .next (State.respondReg .status { s with host := rest }) := by
  simp only [hostStep, h, pollStep_eq, hb, popHost_of_cons h]
  rfl

/-- R104: the second half of a COPYOUT pair writes the byte the host last read. -/
theorem hostStep_of_writeRead {addr : Nat} {v : Byte} (h : s.host = .writeRead addr :: rest)
    (hv : s.rdata = some (.byte v)) :
    hostStep s = hostAccess (.wr8 addr v) { s with host := rest, epoch := s.epoch + 1 } := by
  simp only [hostStep, h, hv, accessStep, popHost_of_cons h]
  rfl

theorem hostStep_of_writeRead_noByte {addr : Nat} (h : s.host = .writeRead addr :: rest)
    (hv : ∀ v, s.rdata ≠ some (.byte v)) : hostStep s = .refused .noByteRead := by
  cases hread : s.rdata with
  | none => simp only [hostStep, h, hread]
  | some d =>
    cases d with
    | word w => simp only [hostStep, h, hread]
    | byte v => exact absurd hread (hv v)

/-- Settles O18: the step at the host's turn, then the host's step for each operation. -/
theorem hostTurnRunsTheOperation : Obligations.HostTurnRunsTheOperation := by
  intro s rest hn
  rw [step_of_hostTurn hn]
  exact ⟨hostStep_of_nil s.popTurn, fun _ => hostStep_of_write s.popTurn, fun _ => hostStep_of_read s.popTurn,
    hostStep_of_poll_busy s.popTurn, hostStep_of_poll_idle s.popTurn, fun _ _ => hostStep_of_writeRead s.popTurn,
    fun _ => hostStep_of_writeRead_noByte s.popTurn⟩

end Sys2Proof.Machine
end

section
/-! PROOFS. Reads while the results are unspecified, and the mark of log 6 that makes them so. -/

namespace Sys2Proof.Machine

variable {s t : State}

/-- R77, R80, R277: while the results are unspecified a result register reads as a draw. -/
theorem readReg_of_unspecified (hu : s.unspecified = true) {reg : HostReg} (hreg : isResult reg = true) :
    readReg s reg = drawFor s reg := by
  rw [readReg, hreg, hu]
  rfl

/-- R42: bits 31:16 of DICT_COUNT are 0 in a draw too (log 5). -/
theorem drawFor_dictCount_high (s : State) : (drawFor s .dictCount).extractLsb' 16 16 = 0#16 := by
  simp only [drawFor]
  ext i hi
  simp

/-- R77: bits 15:0 of DICT_COUNT are free in a draw. -/
theorem drawFor_dictCount_low (s : State) :
    (drawFor s .dictCount).extractLsb' 0 16 = (Config.drawReg s.epoch 0x14).extractLsb' 0 16 := by
  simp only [drawFor, regOffset]
  ext i hi
  simp [hi]
  omega

theorem hostReadOut_of_unspecified (hu : s.unspecified = true) (a : Nat) :
    hostReadOut s a = Config.drawOut s.epoch a := by
  rw [hostReadOut, if_pos hu]

theorem unspecified_of_busy_or_unseen (h : s.busy = true ∨ s.doneUnseen = true) : s.unspecified = true := by
  rcases h with h | h <;> simp [State.unspecified, h]

theorem unspecified_of_tainted (h : s.tainted = true) : s.unspecified = true := by
  simp [State.unspecified, h]

/-- R32, R35: while busy, STATUS shows BUSY alone. -/
theorem State.Inv.statusWord_of_busy (hs : s.Inv) (hb : s.busy = true) : s.statusWord = 0x01#32 := by
  obtain ⟨-, hexcl, herr, -⟩ := hs.flagsOk
  have hd : s.done = false := by simpa using fun hd => hexcl ⟨hb, hd⟩
  obtain ⟨he, -⟩ := herr hd
  rw [State.statusWord, hb, hd, he]
  decide

/-- Settles O31: STATUS from the flags the invariant admits, the results as draws. -/
theorem readsWhileBusy : Obligations.ReadsWhileBusy := by
  intro s hs
  obtain ⟨-, -, -, -, -, hrun, -⟩ := hs.flagsOk
  refine ⟨fun hb => ⟨hs.statusWord_of_busy hb, hrun hb⟩, fun h => ?_⟩
  have hu := unspecified_of_busy_or_unseen h
  have hdict := readReg_of_unspecified hu (reg := .dictCount) rfl
  exact ⟨rfl, rfl, readReg_of_unspecified hu rfl, readReg_of_unspecified hu rfl,
    by rw [hdict, drawFor_dictCount_high], by rw [hdict, drawFor_dictCount_low],
    readReg_of_unspecified hu rfl, readReg_of_unspecified hu rfl, hostReadOut_of_unspecified hu⟩

/-- R80, R276: an IN write that comes where it is forbidden marks the run. -/
theorem storeIn_tainted_of_forbidden (h : s.busy = true ∨ s.doneUnseen = true) (a : Nat) (v : Byte) :
    (s.storeIn a v).tainted = true := by
  rcases h with h | h <;> simp [State.inWriteForbidden, h]

/-- R80: the update that ends a marked command draws ERR (log 6). -/
theorem EngineUpdate.err_of_tainted (h : EngineUpdate s t) (ht : s.tainted = true) (hp : t.phase = .idle) :
    t.err = Config.drawErr t.epoch := by
  cases h with
  | complete | raise => exact if_pos ht
  | beginRecord | emit | enterRecords => cases hp
  | extendMatch _ hp' | append _ _ _ hp' => exact absurd (hp'.symm.trans hp) nofun

/-- Settles O39: the mark is set by the write, kept by every engine step, and read as draws. -/
theorem inWriteWhileBusyMakesResultsDraws : Obligations.InWriteWhileBusyMakesResultsDraws := by
  refine ⟨fun s a v hv hforb ha => ?_, fun s t ht h => ?_, fun s ht => ?_⟩
  · refine ⟨s.storeIn a v, ?_, storeIn_tainted_of_forbidden hforb a v, rfl⟩
    simp only [hostAccess, locate_in s.cfg hv ha]
  · rcases engineUpdate_of_engineStep h with ⟨hidle, rfl⟩ | hu
    · exact ⟨ht, fun hp => absurd hidle hp⟩
    · obtain ⟨-, -, -, -, -, -, htaint, -⟩ := hu.keeps
      exact ⟨htaint.trans ht, fun _ => hu.err_of_tainted ht⟩
  · have hu := unspecified_of_tainted ht
    have hdict := readReg_of_unspecified hu (reg := .dictCount) rfl
    exact ⟨readReg_of_unspecified hu rfl, readReg_of_unspecified hu rfl, readReg_of_unspecified hu rfl,
      readReg_of_unspecified hu rfl, by rw [hdict, drawFor_dictCount_low], by rw [hdict, drawFor_dictCount_high],
      hostReadOut_of_unspecified hu⟩

end Sys2Proof.Machine
end

section
/-! PROOFS. Isolation of commands: states at the same point of a command read the same operands, and every update an engine step
applies keeps them at the same point. -/

namespace Sys2Proof.Machine

/-- `State.sameCommand` with its parts named. -/
structure State.SamePoint (s s' : State) : Prop where
  cfg : s.cfg = s'.cfg
  phase : s.phase = s'.phase
  n : s.n = s'.n
  i : s.i = s'.i
  p : s.p = s'.p
  c : s.c = s'.c
  k : s.k = s'.k
  r : s.r = s'.r
  o : s.o = s'.o
  busy : s.busy = s'.busy
  done : s.done = s'.done
  err : s.err = s'.err
  errPos : s.errPos = s'.errPos
  errInfo : s.errInfo = s'.errInfo
  clean : s.tainted = false
  clean' : s'.tainted = false
  readIn : ∀ a, a < s.n.toNat → readByte s.inBuf a = readByte s'.inBuf a
  entry : ∀ j, s.entry j = s'.entry j
  readOut : ∀ a, a < s.o.toNat → readByte s.outBuf a = readByte s'.outBuf a

/-- Outcomes of the engine that the command cannot tell apart: next states at the same point, or the same fault. -/
inductive SameOutcome : Result → Result → Prop where
  | next {t t' : State} (h : t.SamePoint t') : SameOutcome (.next t) (.next t')
  | fault (f : Fault) : SameOutcome (.fault f) (.fault f)

variable {s s' t t' : State}

theorem State.sameCommand_iff : s.sameCommand s' ↔ s.SamePoint s' :=
  ⟨fun ⟨cfg, phase, n, i, p, c, k, r, o, busy, done, err, errPos, errInfo, clean, clean', readIn, entry, readOut⟩ =>
    ⟨cfg, phase, n, i, p, c, k, r, o, busy, done, err, errPos, errInfo, clean, clean', readIn, entry, readOut⟩,
   fun h => ⟨h.cfg, h.phase, h.n, h.i, h.p, h.c, h.k, h.r, h.o, h.busy, h.done, h.err, h.errPos, h.errInfo, h.clean, h.clean',
    h.readIn, h.entry, h.readOut⟩⟩

/-! What the engine reads is the same at both. -/

/-- R131: a source byte below N. -/
theorem State.SamePoint.engineReadIn_eq (h : s.SamePoint s') {a : Nat} (ha : a < s.n.toNat) :
    engineReadIn s a = engineReadIn s' a := by
  rw [engineReadIn, h.cfg, h.readIn a ha]
  rfl

/-- R195: a record whose three bytes lie below N. -/
theorem State.SamePoint.deser_eq (h : s.SamePoint s') {a : Nat} (ha : a + 3 ≤ s.n.toNat) : deser s a = deser s' a := by
  unfold deser
  rw [h.engineReadIn_eq (a := a) (by omega), h.engineReadIn_eq (a := a + 1) (by omega),
    h.engineReadIn_eq (a := a + 2) (by omega)]

/-- R124: FIND reads valid entries only. -/
theorem State.SamePoint.find_eq (h : s.SamePoint s') (node : Index) (sym : Byte) : find s node sym = find s' node sym := by
  simp only [find, h.k, h.entry]

/-- R28: so does the recursion of STR. -/
theorem State.SamePoint.entryString_eq (h : s.SamePoint s') (fuel j : Nat) :
    entryString s fuel j = entryString s' fuel j := by
  induction fuel generalizing j with
  | zero => rfl
  | succ fuel ih => simp only [entryString, h.entry, ih]

theorem State.SamePoint.baseString_eq (h : s.SamePoint s') (ref : Index) : baseString s ref = baseString s' ref := by
  simp only [baseString, str, h.entryString_eq]

theorem State.SamePoint.recordPos_eq (h : s.SamePoint s') : s.recordPos = s'.recordPos := by
  rw [State.recordPos, h.r]
  rfl

theorem State.SamePoint.atLastSymbol_eq (h : s.SamePoint s') : s.atLastSymbol = s'.atLastSymbol := by
  rw [State.atLastSymbol, h.p, h.n]
  rfl

theorem State.SamePoint.allRecordsDone_eq (h : s.SamePoint s') : s.allRecordsDone = s'.allRecordsDone := by
  rw [State.allRecordsDone, h.recordPos_eq, h.n]
  rfl

/-! The updates keep two states at the same point. -/

theorem State.SamePoint.tick (h : s.SamePoint s') : s.tick.SamePoint s'.tick := { h with }

/-- R236: with no forbidden IN write the error's code is no draw. -/
theorem State.SamePoint.raise (h : s.SamePoint s') (e : ErrCode) (pos info : Word) :
    (s.raise e pos info).SamePoint (s'.raise e pos info) :=
  { h with
    phase := rfl, busy := rfl, done := rfl, errPos := rfl, errInfo := rfl
    err := by simp [State.errAtEnd, h.clean, h.clean'] }

theorem State.SamePoint.complete (h : s.SamePoint s') : s.complete.SamePoint s'.complete :=
  { h.raise .none 0 0 with errPos := h.errPos, errInfo := h.errInfo }

theorem State.SamePoint.beginRecord (h : s.SamePoint s') : s.beginRecord.SamePoint s'.beginRecord :=
  { h with phase := rfl, c := rfl, p := h.i }

theorem State.SamePoint.extendMatch (h : s.SamePoint s') (f : Index) : (s.extendMatch f).SamePoint (s'.extendMatch f) :=
  { h with c := rfl, p := by simp [h.p] }

theorem State.SamePoint.enterRecords (h : s.SamePoint s') : s.enterRecords.SamePoint s'.enterRecords :=
  { h with phase := rfl }

/-- A valid entry after a record is the one it added or an older one (R132, R164). -/
theorem RecordEffect.entry_eq {e : List Byte} {x : DictEntry} (h : RecordEffect s t e x) (j : Nat) :
    t.entry j = if s.k.toNat < s.cfg.dictCap ∧ j = s.k.toNat + 1 then some x else s.entry j := by
  unfold State.entry
  rcases h.entry with ⟨hroom, -, hdict, hk⟩ | ⟨hfull, hdict, hk⟩
  · rw [hdict, hk, Store.read_write]
    by_cases hj : j = s.k.toNat + 1
    · simp [hj, hroom]
    · have hle : j ≤ s.k.toNat + 1 ↔ j ≤ s.k.toNat := by omega
      simp only [hj, hle, and_false, if_false]
  · rw [hdict, hk, if_neg (by omega : ¬ (s.k.toNat < s.cfg.dictCap ∧ j = s.k.toNat + 1))]

/-- R132, R164, R165: after the same record both still have the same valid entries and the same OUT below O. -/
theorem RecordEffect.reads_eq {e : List Byte} {x : DictEntry} (h : RecordEffect s t e x) (h' : RecordEffect s' t' e x)
    (hs : s.SamePoint s') : (∀ j, t.entry j = t'.entry j) ∧
    ∀ a, a < t.o.toNat → readByte t.outBuf a = readByte t'.outBuf a := by
  refine ⟨fun j => ?_, fun a ha => ?_⟩
  · rw [h.entry_eq, h'.entry_eq, hs.k, hs.cfg, hs.entry]
  · rw [h.o] at ha
    rw [h.outBuf, h'.outBuf, readByte_writeBytes, readByte_writeBytes, hs.o]
    split
    · rfl
    · rename_i hout
      rw [← hs.o] at hout
      exact hs.readOut a (by omega)

theorem State.SamePoint.emitted (h : s.SamePoint s') (hs : s.Inv) (hs' : s'.Inv) (sym : Byte) (hp : s.phase = .eSym)
    (ho : s.o.toNat + 3 ≤ s.cfg.outMax) (hk : s.k.toNat < s.cfg.dictCap) :
    (s.emitted s.c sym).nextRecord.SamePoint (s'.emitted s'.c sym).nextRecord := by
  have hrec := recordEffect_emitted hs sym hp ho hk
  have hrec' := recordEffect_emitted hs' sym (h.phase ▸ hp) (by rwa [← h.o, ← h.cfg]) (by rwa [← h.k, ← h.cfg])
  rw [← h.c] at hrec' ⊢
  obtain ⟨hentry, hout⟩ := hrec.reads_eq hrec' h
  exact { h with
    phase := rfl, i := by simp [h.p], k := by simp [h.k], r := by simp [h.r], o := by simp [h.o]
    entry := hentry, readOut := hout }

theorem State.SamePoint.appended (h : s.SamePoint s') (hs : s.Inv) (hs' : s'.Inv) {ref : Index} (sym : Byte)
    {e : List Byte} (hp : s.phase = .dRec) (hd : s.allRecordsDone = false) (href : ref.toNat ≤ s.r.toNat)
    (ho : s.o.toNat + e.length ≤ s.cfg.outMax) : (s.appended ref sym e).SamePoint (s'.appended ref sym e) := by
  have hrec := recordEffect_appended hs sym hp hd href ho
  have hrec' := recordEffect_appended hs' (ref := ref) (e := e) sym (h.phase ▸ hp) (h.allRecordsDone_eq ▸ hd) (h.r ▸ href)
    (by rwa [← h.o, ← h.cfg])
  obtain ⟨hentry, hout⟩ := hrec.reads_eq hrec' h
  exact { h with
    k := by simp [h.k, h.r, h.cfg], r := by simp [h.r], o := by simp [h.o]
    entry := hentry, readOut := hout }

theorem SameOutcome.exists_next {q : Result} (h : SameOutcome (.next t) q) : ∃ t', q = .next t' ∧ t.SamePoint t' := by
  cases h with
  | next h => exact ⟨_, rfl, h⟩

theorem engineEBegin_sameOutcome (h : s.SamePoint s') : SameOutcome (engineEBegin s) (engineEBegin s') := by
  unfold engineEBegin
  rw [h.i, h.n, h.k, h.cfg]
  split
  · exact .next h.complete
  · split
    · exact .next (h.raise _ _ _)
    · exact .next h.beginRecord

theorem State.Inv.matchOk (h : s.Inv) (hp : s.phase = .eSym) : s.MatchOk := by
  obtain ⟨-, -, -, -, -, hmatch, -⟩ := h
  exact hmatch hp

theorem State.Inv.decodeOk (h : s.Inv) (hp : s.phase = .dRec) : s.DecodeOk := by
  obtain ⟨-, -, -, -, -, -, -, hdecode⟩ := h
  exact hdecode hp

/-- R132, R134: in E_SYM there is room in OUT for the record. -/
theorem State.Inv.outRoom (hs : s.Inv) (hp : s.phase = .eSym) : s.o.toNat + 3 ≤ s.cfg.outMax := by
  obtain ⟨-, -, -, -, hmax, -⟩ := hs.cfgValid
  obtain ⟨-, -, -, -, hn, -⟩ := hs.flagsOk
  obtain ⟨-, ho, -, hri⟩ := hs.encodeOk (.inr hp)
  obtain ⟨hip, hpn, -⟩ := hs.matchOk hp
  omega

theorem emitAndAdvance_sameOutcome (h : s.SamePoint s') (hs : s.Inv) (hs' : s'.Inv) (hp : s.phase = .eSym) (sym : Byte) :
    SameOutcome (emitAndAdvance sym s) (emitAndAdvance sym s') := by
  have hp' : s'.phase = .eSym := h.phase ▸ hp
  obtain ⟨-, -, -, hk⟩ := hs.matchOk hp
  rw [emitAndAdvance_next sym (hs.outRoom hp) hk, emitAndAdvance_next sym (hs'.outRoom hp') (by rwa [← h.k, ← h.cfg])]
  exact .next (h.emitted hs hs' sym hp (hs.outRoom hp) hk)

theorem engineESym_sameOutcome (h : s.SamePoint s') (hs : s.Inv) (hs' : s'.Inv) (hp : s.phase = .eSym) :
    SameOutcome (engineESym s) (engineESym s') := by
  obtain ⟨-, hpn, -, -⟩ := hs.matchOk hp
  unfold engineESym
  rw [h.engineReadIn_eq hpn, h.p]
  split
  · exact .fault _
  · rename_i sym _
    rw [h.atLastSymbol_eq, h.c, h.find_eq]
    split
    · exact emitAndAdvance_sameOutcome h hs hs' hp sym
    · split
      · exact emitAndAdvance_sameOutcome h hs hs' hp sym
      · exact .next (h.extendMatch _)

theorem engineDBegin_sameOutcome (h : s.SamePoint s') : SameOutcome (engineDBegin s) (engineDBegin s') := by
  unfold engineDBegin
  rw [h.n]
  split
  · exact .next (h.raise _ _ _)
  · exact .next h.enterRecords

theorem runRecord_sameOutcome (h : s.SamePoint s') (hs : s.Inv) (hs' : s'.Inv) (hp : s.phase = .dRec)
    (hd : s.allRecordsDone = false) (ref : Index) (sym : Byte) :
    SameOutcome (runRecord ref sym s) (runRecord ref sym s') := by
  unfold runRecord errRecordPos
  rw [h.recordPos_eq, h.baseString_eq, ← h.r, ← h.o, ← h.cfg]
  split
  · exact .next (h.raise _ _ _)
  · rename_i href
    split
    · exact .fault _
    · split
      · exact .next (h.raise _ _ _)
      · rename_i ho
        exact .next (h.appended hs hs' sym hp hd (Nat.not_lt.1 href) (Nat.not_lt.1 ho))

theorem engineDRec_sameOutcome (h : s.SamePoint s') (hs : s.Inv) (hs' : s'.Inv) (hp : s.phase = .dRec) :
    SameOutcome (engineDRec s) (engineDRec s') := by
  unfold engineDRec
  rw [← h.allRecordsDone_eq]
  split
  · exact .next h.complete
  · rename_i hd
    have hd : s.allRecordsDone = false := by simpa using hd
    rw [← h.recordPos_eq, ← h.deser_eq (a := s.recordPos) (recordPos_add_three_le (hs.decodeOk hp) hd)]
    split
    · exact .fault _
    · rw [exec_decodeRecord, exec_decodeRecord]
      exact runRecord_sameOutcome h hs hs' hp hd _ _

/-- R84: two states at the same point of a command take the same engine step. -/
theorem engineStep_sameOutcome (h : s.SamePoint s') (hs : s.Inv) (hs' : s'.Inv) :
    SameOutcome (engineStep s) (engineStep s') := by
  unfold engineStep
  rw [← h.phase]
  split
  · exact .next h
  · exact engineEBegin_sameOutcome h.tick
  · exact engineESym_sameOutcome h.tick hs.tick hs'.tick ‹_›
  · exact engineDBegin_sameOutcome h.tick
  · exact engineDRec_sameOutcome h.tick hs.tick hs'.tick ‹_›

/-- R217: a start leaves no valid entry. -/
theorem entry_start (s : State) (ph : Phase) (j : Nat) : (s.start ph).entry j = none :=
  if_neg fun ⟨h1, hk⟩ => absurd (h1.trans hk) (by simp)

/-- R84, R217: a start brings states with the same parameters, IN_LEN and input to the same point. -/
theorem samePoint_start (ph : Phase) (hcfg : s.cfg = s'.cfg) (hlen : s.inLen = s'.inLen)
    (hin : ∀ a, a < s.inLen.toNat → readByte s.inBuf a = readByte s'.inBuf a) :
    (s.start ph).SamePoint (s'.start ph) where
  cfg := hcfg
  phase := rfl
  n := hlen
  i := rfl
  p := rfl
  c := rfl
  k := rfl
  r := rfl
  o := rfl
  busy := rfl
  done := rfl
  err := rfl
  errPos := rfl
  errInfo := rfl
  clean := rfl
  clean' := rfl
  readIn := hin
  entry j := by rw [entry_start, entry_start]
  readOut := nofun

/-- Settles O47: engine steps keep the same point, and a start brings about it. -/
theorem commandsAreIsolated : Obligations.CommandsAreIsolated := by
  refine ⟨fun s s' t hs hs' hsame h => ?_, fun s s' ph hcfg hlen hin =>
    State.sameCommand_iff.2 (samePoint_start ph hcfg hlen hin)⟩
  have hout := engineStep_sameOutcome (State.sameCommand_iff.1 hsame) hs hs'
  rw [h] at hout
  obtain ⟨t', ht', hpoint⟩ := hout.exists_next
  exact ⟨t', ht', State.sameCommand_iff.2 hpoint⟩

end Sys2Proof.Machine
end

section
/-! PROOFS. The two encoded forms: the fields of a record's bytes, and decoding and encoding undo each other on the wire, in a
command word and in the opcode table's numbering of the bits. -/

namespace Sys2Proof

/-- R92: REF is byte0 · 256 + byte1; the two bytes share no bit. -/
theorem assembleRef_toNat (b0 b1 : Byte) : (assembleRef b0 b1).toNat = b0.toNat * 256 + b1.toNat := by
  have h0 := b0.isLt
  have h1 := b1.isLt
  have hor : b0.toNat <<< 8 ||| b1.toNat = b0.toNat <<< 8 + b1.toNat := (Nat.shiftLeft_add_eq_or_of_lt h1 _).symm
  simp only [assembleRef, BitVec.toNat_or, BitVec.toNat_shiftLeft, BitVec.truncate_eq_setWidth, BitVec.toNat_setWidth]
  rw [Nat.mod_eq_of_lt (show b0.toNat < 2 ^ 16 by omega), Nat.mod_eq_of_lt (show b1.toNat < 2 ^ 16 by omega),
    Nat.mod_eq_of_lt (show b0.toNat <<< 8 < 2 ^ 16 by rw [Nat.shiftLeft_eq]; omega), hor, Nat.shiftLeft_eq]

@[simp] theorem refHigh_assembleRef (b0 b1 : Byte) : refHigh (assembleRef b0 b1) = b0 := by
  have h1 := b1.isLt
  apply BitVec.eq_of_toNat_eq
  rw [refHigh, BitVec.extractLsb'_toNat, assembleRef_toNat, Nat.shiftRight_eq_div_pow]
  omega

@[simp] theorem refLow_assembleRef (b0 b1 : Byte) : refLow (assembleRef b0 b1) = b1 := by
  have h1 := b1.isLt
  apply BitVec.eq_of_toNat_eq
  rw [refLow, BitVec.extractLsb'_toNat, assembleRef_toNat, Nat.shiftRight_eq_div_pow]
  omega

@[simp] theorem assembleRef_refHigh_refLow (ref : Index) : assembleRef (refHigh ref) (refLow ref) = ref :=
  BitVec.eq_of_toNat_eq ((assembleRef_toNat _ _).trans (Laws.TableRow.refBytes_value ref))

/-- R93: a record is LIT exactly when REF, as a number, is 0. -/
theorem assembleRef_eq_zero_iff {b0 b1 : Byte} : assembleRef b0 b1 = 0 ↔ b0.toNat * 256 + b1.toNat = 0 := by
  rw [← assembleRef_toNat]
  exact BitVec.toNat_eq

theorem decodeRecord_of_ref_zero {b0 b1 : Byte} (h : assembleRef b0 b1 = 0) (b2 : Byte) :
    decodeRecord b0 b1 b2 = .lit b2 := if_pos h

theorem decodeRecord_of_ref_ne_zero {b0 b1 : Byte} (h : assembleRef b0 b1 ≠ 0) (b2 : Byte) :
    decodeRecord b0 b1 b2 = .ext (assembleRef b0 b1) b2 := if_neg h

/-- R94: every 3-byte group spells a well-formed record. -/
theorem decodeRecord_wellFormed (b0 b1 b2 : Byte) : (decodeRecord b0 b1 b2).wellFormed = true := by
  by_cases h : assembleRef b0 b1 = 0
  · rw [decodeRecord_of_ref_zero h]
    rfl
  · rw [decodeRecord_of_ref_ne_zero h]
    exact bne_iff_ne.2 h

/-- R92, R93: the encoder gives back the three bytes; those of a LIT record are the halves of REF = 0. -/
theorem encodeInstr_decodeRecord (b0 b1 b2 : Byte) : encodeInstr (decodeRecord b0 b1 b2) = .wire b0 b1 b2 := by
  by_cases h : assembleRef b0 b1 = 0
  · have h0 : b0 = 0 := by rw [← refHigh_assembleRef b0 b1, h]; rfl
    have h1 : b1 = 0 := by rw [← refLow_assembleRef b0 b1, h]; rfl
    rw [decodeRecord_of_ref_zero h, h0, h1]
    rfl
  · rw [decodeRecord_of_ref_ne_zero h, encodeInstr, refHigh_assembleRef, refLow_assembleRef]

/-- R92, R93, R99: the decoder of the encoded form gives back a well-formed instruction. -/
theorem decodeEncoded_encodeInstr {i : Instr} (h : i.wellFormed = true) : decodeEncoded (encodeInstr i) = .ok i := by
  cases i with
  | nop | encode | decode => rfl
  | lit sym => exact congrArg Except.ok (decodeRecord_of_ref_zero rfl sym)
  | ext ref sym =>
    have hne : assembleRef (refHigh ref) (refLow ref) ≠ 0 := by simpa [Instr.wellFormed] using h
    rw [encodeInstr, decodeEncoded, decodeRecord_of_ref_ne_zero hne, assembleRef_refHigh_refLow]

/-- R91: the bytes cut from the record word W are those it was put together from. -/
theorem recordBytes_of_word (b0 b1 b2 : Byte) :
    recordByte0 (b0.toNat * 65536 + b1.toNat * 256 + b2.toNat) = b0 ∧
    recordByte1 (b0.toNat * 65536 + b1.toNat * 256 + b2.toNat) = b1 ∧
    recordByte2 (b0.toNat * 65536 + b1.toNat * 256 + b2.toNat) = b2 := by
  have h0 := b0.isLt
  have h1 := b1.isLt
  have h2 := b2.isLt
  refine ⟨BitVec.eq_of_toNat_eq ?_, BitVec.eq_of_toNat_eq ?_, BitVec.eq_of_toNat_eq ?_⟩
  · rw [recordByte0, BitVec.toNat_ofNat]
    omega
  · rw [recordByte1, BitVec.toNat_ofNat]
    omega
  · rw [recordByte2, BitVec.toNat_ofNat]
    omega

/-- R91, R99: the table's word of an instruction decodes as its encoded form does. -/
theorem decodeTableWord_encodeTableWord (i : Instr) :
    decodeTableWord (encodeTableWord i).1 (encodeTableWord i).2 = (decodeEncoded (encodeInstr i)).toOption := by
  unfold encodeTableWord
  cases encodeInstr i with
  | command w => simp [decodeTableWord, decodeEncoded]
  | wire b0 b1 b2 =>
    obtain ⟨h0, h1, h2⟩ := recordBytes_of_word b0 b1 b2
    simp [decodeTableWord, decodeEncoded, h0, h1, h2, Except.toOption]

/-- Settles O2: the table's word decodes as the encoded form does, and that gives the instruction back. -/
theorem decodeOfEncodeIsIdentity : Obligations.DecodeOfEncodeIsIdentity := by
  intro i hi
  have h := decodeEncoded_encodeInstr hi
  exact ⟨h, by rw [decodeTableWord_encodeTableWord, h]; rfl⟩

/-- Settles O3: records by the halves of REF, command words by the three that decode. -/
theorem encodeOfDecodeIsIdentity : Obligations.EncodeOfDecodeIsIdentity := by
  refine ⟨fun b0 b1 b2 => ⟨decodeRecord_wellFormed b0 b1 b2, encodeInstr_decodeRecord b0 b1 b2⟩, fun w i h => ?_⟩
  rcases Machine.decodeCtrl_ok h with ⟨rfl, rfl⟩ | ⟨rfl, rfl⟩ | ⟨rfl, rfl⟩ <;> exact ⟨rfl, rfl⟩

/-- Settles O4: the kind by REF as a number. -/
theorem recordFieldsAndKinds : Obligations.RecordFieldsAndKinds := fun b0 b1 b2 =>
  ⟨assembleRef_toNat b0 b1, refHigh_assembleRef b0 b1, refLow_assembleRef b0 b1,
    fun h => decodeRecord_of_ref_zero (assembleRef_eq_zero_iff.2 h) b2,
    fun h => ⟨_, decodeRecord_of_ref_ne_zero (mt assembleRef_eq_zero_iff.1 h) b2, assembleRef_toNat b0 b1⟩⟩

/-- Settles O1: the decoders evaluated at the words of the table and at those of the vectors F6 to F9. -/
theorem wordsOfTheTableDecode : Obligations.WordsOfTheTableDecode := by
  unfold Obligations.WordsOfTheTableDecode
  decide

end Sys2Proof
end

section
/-! PROOFS. The functional core: the turn of encode_inf (its entry, its reference, what is left of the source), and what it gives
over a whole source. -/

namespace Sys2Proof.Codec

/-- A key in force has the index of some pair of the map. -/
theorem exists_mem_of_keyIndex {d : KeyMap} {e : List Byte} {j : Nat} (h : keyIndex d e = some j) : ∃ kv ∈ d, kv.2 = j := by
  obtain ⟨kv, hfind, rfl⟩ := Option.map_eq_some_iff.1 h
  exact ⟨kv, List.mem_of_find?_eq_some hfind, rfl⟩

/-- R121: the match loop never shrinks the slice, and never grows it beyond the rest. -/
theorem matchLength_bounds (d : KeyMap) (rest : List Byte) (fuel l : Nat) (hl : l ≤ rest.length) :
    l ≤ matchLength d rest fuel l ∧ matchLength d rest fuel l ≤ rest.length := by
  induction fuel generalizing l with
  | zero => exact ⟨le_rfl, hl⟩
  | succ fuel ih =>
    rw [matchLength]
    split
    · rename_i hgrow
      have := ih (l + 1) hgrow.1
      omega
    · exact ⟨le_rfl, hl⟩

/-- The entry of one turn of encode_inf on `rest` (R121). -/
def nextEntry (d : KeyMap) (rest : List Byte) : List Byte := rest.take (matchLength d rest rest.length 1)

/-- R121: the entry of a turn takes at least one symbol, and no more than are left. -/
theorem nextEntry_length_bounds (d : KeyMap) {rest : List Byte} (h : rest ≠ []) :
    1 ≤ (nextEntry d rest).length ∧ (nextEntry d rest).length ≤ rest.length := by
  have := matchLength_bounds d rest rest.length 1 (List.length_pos_iff.2 h)
  rw [nextEntry, List.length_take]
  omega

/-- R120: the entry of a turn is cut off the front of the rest. -/
theorem nextEntry_append_drop (d : KeyMap) (rest : List Byte) :
    nextEntry d rest ++ rest.drop (nextEntry d rest).length = rest := by
  unfold nextEntry
  rw [List.length_take, List.take_eq_take_min, List.take_append_drop]

theorem encodeFrom_nil (fuel : Nat) (d : KeyMap) (count : Nat) : encodeFrom fuel d count [] = [] := by
  cases fuel <;> rfl

/-- R120, R123: one turn of encode_inf while source is left. -/
theorem encodeFrom_succ {rest : List Byte} (h : rest ≠ []) (fuel : Nat) (d : KeyMap) (count : Nat) :
    encodeFrom (fuel + 1) d count rest = (recordFor d (nextEntry d rest), nextEntry d rest) ::
      encodeFrom fuel ((nextEntry d rest, count + 1) :: d) (count + 1) (rest.drop (nextEntry d rest).length) :=
  if_neg h

/-- R122: a record's reference is 0 or the index of a key. -/
theorem recordFor_ref_le {d : KeyMap} {count : Nat} (hd : ∀ kv ∈ d, kv.2 ≤ count) (e : List Byte) :
    (recordFor d e).ref ≤ count := by
  unfold recordFor
  split
  · cases hk : keyIndex d e.dropLast with
    | none => exact Nat.zero_le _
    | some j =>
      obtain ⟨kv, hmem, rfl⟩ := exists_mem_of_keyIndex hk
      exact hd kv hmem
  · exact Nat.zero_le _

/-- R98, R123: the references stay below the count of the entries before, which grows by one a turn. -/
theorem encodeFrom_ref_le {fuel count : Nat} {d : KeyMap} {rest : List Byte} (hd : ∀ kv ∈ d, kv.2 ≤ count)
    {j : Nat} {re : Record × List Byte} (h : (encodeFrom fuel d count rest)[j]? = some re) : re.1.ref ≤ count + j := by
  induction fuel generalizing d count rest j with
  | zero => simp [encodeFrom] at h
  | succ fuel ih =>
    by_cases hr : rest = []
    · simp [hr, encodeFrom_nil] at h
    rw [encodeFrom_succ hr] at h
    cases j with
    | zero =>
      cases h
      exact recordFor_ref_le hd _
    | succ j =>
      have hd' : ∀ kv ∈ (nextEntry d rest, count + 1) :: d, kv.2 ≤ count + 1 :=
        List.forall_mem_cons.2 ⟨le_rfl, fun kv hkv => (hd kv hkv).trans (Nat.le_succ _)⟩
      have := ih hd' h
      omega

/-- R134 (a): every entry has a symbol. -/
theorem one_le_length_of_mem_encodeFrom {fuel count : Nat} {d : KeyMap} {rest : List Byte} {re : Record × List Byte}
    (h : re ∈ encodeFrom fuel d count rest) : 1 ≤ re.2.length := by
  induction fuel generalizing d count rest with
  | zero => cases h
  | succ fuel ih =>
    by_cases hr : rest = []
    · simp [hr, encodeFrom_nil] at h
    rw [encodeFrom_succ hr] at h
    rcases List.mem_cons.1 h with rfl | h
    · exact (nextEntry_length_bounds d hr).1
    · exact ih h

/-- R134 (e): with a turn for each symbol the entries use up the source, each turn's entry being cut off its front. -/
theorem encodeFrom_entries_flatten {fuel count : Nat} {d : KeyMap} {rest : List Byte} (hf : rest.length ≤ fuel) :
    ((encodeFrom fuel d count rest).map Prod.snd).flatten = rest := by
  induction fuel generalizing d count rest with
  | zero => simp [List.length_eq_zero_iff.1 (Nat.le_zero.1 hf), encodeFrom]
  | succ fuel ih =>
    by_cases hr : rest = []
    · simp [hr, encodeFrom_nil]
    have hb := nextEntry_length_bounds d hr
    have hrest : (rest.drop (nextEntry d rest).length).length ≤ fuel := by
      rw [List.length_drop]
      omega
    rw [encodeFrom_succ hr, List.map_cons, List.flatten_cons, ih hrest]
    exact nextEntry_append_drop d rest

/-- R120: the entries of encode_inf, joined, are the source. -/
theorem encodeEntries_flatten (src : List Byte) : ((encodeEntries src).map Prod.snd).flatten = src :=
  encodeFrom_entries_flatten le_rfl

/-- R134 (e): so their lengths add up to the source's. -/
theorem encodeEntries_lengths_sum (src : List Byte) :
    ((encodeEntries src).map fun re => re.2.length).sum = src.length := by
  have h := congrArg List.length (encodeEntries_flatten src)
  rwa [List.length_flatten, List.map_map] at h

/-- R134 (a): there are at most as many records as symbols. -/
theorem encodeInf_length_le (src : List Byte) : (encodeInf src).length ≤ src.length := by
  have h := List.length_le_sum_of_one_le ((encodeEntries src).map fun re => re.2.length) fun n hn => by
    obtain ⟨re, hre, rfl⟩ := List.mem_map.1 hn
    exact one_le_length_of_mem_encodeFrom hre
  rw [encodeEntries_lengths_sum, List.length_map] at h
  rwa [encodeInf, List.length_map]

/-- R98, R134 (d): the record after `j` others refers to one of them, or to none. -/
theorem encodeInf_ref_le {src : List Byte} {j : Nat} {x : Record} (h : (encodeInf src)[j]? = some x) : x.ref ≤ j := by
  rw [encodeInf, List.getElem?_map] at h
  obtain ⟨re, hre, rfl⟩ := Option.map_eq_some_iff.1 h
  simpa using encodeFrom_ref_le (List.forall_mem_nil _) hre

/-- Settles O53, from the turns of encode_inf. -/
theorem encoderRecordBounds : Obligations.EncoderRecordBounds := fun src =>
  ⟨fun _ _ => encodeInf_ref_le, encodeInf_length_le src, encodeEntries_lengths_sum src⟩

/-- R193: a length that is no multiple of 3 is truncated. -/
theorem deframe_of_length_mod_ne {w : List Byte} (h : w.length % 3 ≠ 0) : deframe w = .error .truncated := if_pos h

/-- R194: a whole number of 3-byte groups is cut into records. -/
theorem deframe_of_length_mod {w : List Byte} (h : w.length % 3 = 0) : deframe w = .ok (cutRecords w) :=
  if_neg (not_not_intro h)

/-- Settles O52, by the length of the stream modulo 3. -/
theorem deframeRejectsBadLength : Obligations.DeframeRejectsBadLength := by
  refine ⟨rfl, fun w => ⟨fun h hmod => ?_, deframe_of_length_mod_ne⟩⟩
  rw [deframe_of_length_mod hmod] at h
  cases h

end Sys2Proof.Codec
end

section
/-! PROOFS. The ENCODE steps: one equation per arm of E_BEGIN and of E_SYM, and what completion leaves in STATUS. -/

namespace Sys2Proof.Machine

variable {s : State}

/-- R130, R240: no symbol is left, whatever the dictionary holds. -/
theorem engineEBegin_of_end (hi : s.i = s.n) : engineEBegin s = .next s.complete := if_pos hi

/-- R129, R130: a symbol is left, and no room for an entry. -/
theorem engineEBegin_of_full (hi : s.i ≠ s.n) (hk : s.k.toNat = s.cfg.dictCap) :
    engineEBegin s = .next (s.raise .capacityExceeded s.i 0) := (if_neg hi).trans (if_pos hk)

theorem engineEBegin_of_room (hi : s.i ≠ s.n) (hk : s.k.toNat ≠ s.cfg.dictCap) : engineEBegin s = .next s.beginRecord :=
  (if_neg hi).trans (if_neg hk)

/-- R127: the last symbol, by its position. -/
theorem atLastSymbol_iff : s.atLastSymbol = true ↔ s.p.toNat + 1 = s.n.toNat := beq_iff_eq

/-- R127, R131, R132: E_SYM emits on the last symbol and where FIND answers 0. -/
theorem engineESym_of_emit {sym : Byte} (hread : engineReadIn s s.p.toNat = .ok sym)
    (hstop : s.p.toNat + 1 = s.n.toNat ∨ find s s.c sym = 0) (ho : s.o.toNat + 3 ≤ s.cfg.outMax)
    (hk : s.k.toNat < s.cfg.dictCap) : engineESym s = .next (s.emitted s.c sym).nextRecord := by
  rw [engineESym, hread, ← emitAndAdvance_next sym ho hk]
  rcases hstop with hlast | hnone
  · exact if_pos (atLastSymbol_iff.2 hlast)
  · simp only [if_pos hnone, ite_self]

/-- R131: E_SYM extends the match where a symbol follows and FIND answers an entry. -/
theorem engineESym_of_extend {sym : Byte} (hread : engineReadIn s s.p.toNat = .ok sym)
    (hlast : s.p.toNat + 1 ≠ s.n.toNat) (hfind : find s s.c sym ≠ 0) :
    engineESym s = .next (s.extendMatch (find s s.c sym)) := by
  rw [engineESym, hread]
  exact (if_neg (mt atLastSymbol_iff.1 hlast)).trans (if_neg hfind)

/-- R168: D_REC with no record left. -/
theorem engineDRec_of_end (h : s.recordPos = s.n.toNat) : engineDRec s = .next s.complete := if_pos (beq_iff_eq.2 h)

/-- R80: a command during which IN was not written ends with the error's own code. -/
theorem errAtEnd_of_clean (h : s.tainted = false) (e : ErrCode) : s.errAtEnd e = e := by
  rw [State.errAtEnd, h]
  rfl

/-- R33, R34, R35: STATUS after an error. -/
theorem statusWord_raise (h : s.tainted = false) (e : ErrCode) (pos info : Word) :
    (s.raise e pos info).statusWord = statusOf false true e := by
  rw [State.statusWord, State.raise_busy, State.raise_done, State.raise_err, errAtEnd_of_clean h]

/-- R133, R168: a completion leaves the flags as the code 000 does. -/
theorem statusWord_complete (h : s.tainted = false) : s.complete.statusWord = 0x02#32 :=
  statusWord_raise h .none s.errPos s.errInfo

/-- Settles O19, arm by arm. -/
theorem recordBeginStep : Obligations.RecordBeginStep := fun _ =>
  ⟨engineEBegin_of_end, engineEBegin_of_full, engineEBegin_of_room⟩

/-- Settles O20, the record's three bytes being written one by one. -/
theorem symbolStepEmits : Obligations.SymbolStepEmits := fun _ _ hp hread =>
  engineESym_of_emit (engineReadIn_ok.2 ⟨hp, hread⟩)

/-- Settles O21. -/
theorem symbolStepExtends : Obligations.SymbolStepExtends := fun _ _ hp hread =>
  engineESym_of_extend (engineReadIn_ok.2 ⟨hp, hread⟩)

/-- Settles O26: both commands end by the same update. -/
theorem completionSetsDone : Obligations.CompletionSetsDone := by
  intro s hclean
  have hstate : s.complete = { s with phase := .idle, busy := false, done := true, err := .none } := by
    rw [State.complete, State.flagsAtEnd, errAtEnd_of_clean hclean]
  exact ⟨fun h => ⟨_, engineDRec_of_end h, statusWord_complete hclean, hstate⟩,
    fun h => ⟨_, engineEBegin_of_end h, statusWord_complete hclean, hstate⟩⟩

/-- Settles O56: the start leaves I = 0, and N = IN_LEN = 0. -/
theorem emptyInputEncodes : Obligations.EmptyInputEncodes := by
  intro s _ hlen
  have hi : (s.start .eBegin).tick.i = (s.start .eBegin).tick.n := hlen.symm
  exact ⟨_, (engineStep_of_eBegin rfl).trans (engineEBegin_of_end hi), rfl, statusWord_complete rfl, rfl, rfl, rfl, rfl,
    rfl⟩

end Sys2Proof.Machine
end

section
/-! PROOFS. FIND as a search of the valid entries: it answers the least that is the pair looked for, and 0 for none. -/

namespace Sys2Proof.Machine

/-- R124: FIND answers 0 and no valid entry is the pair, or the least valid entry that is. -/
theorem find_cases (s : State) (node : Index) (sym : Byte) :
    (find s node sym = 0 ∧ ∀ j, s.entry j ≠ some ⟨node, sym⟩) ∨
    (find s node sym ≠ 0 ∧ s.entry (find s node sym).toNat = some ⟨node, sym⟩ ∧
      ∀ m, m < (find s node sym).toNat → s.entry m ≠ some ⟨node, sym⟩) := by
  have houtside : ∀ j, ¬ (1 ≤ j ∧ j ≤ s.k.toNat) → s.entry j ≠ some ⟨node, sym⟩ := fun j hj => by
    rw [State.entry, if_neg hj]
    nofun
  unfold find
  split
  · rename_i j hj
    obtain ⟨hentry, hmem, hleast⟩ := List.find?_range'_eq_some.1 hj
    have hmem := List.mem_range'_1.1 hmem
    have hk := s.k.isLt
    have hnat : (BitVec.ofNat 16 j).toNat = j := Nat.mod_eq_of_lt (by omega)
    refine .inr ⟨fun h0 => ?_, ?_, fun m hm => ?_⟩
    · rw [h0] at hnat
      have hj0 : 0 = j := hnat
      omega
    · rw [hnat]
      exact beq_iff_eq.1 hentry
    · rw [hnat] at hm
      by_cases h1 : 1 ≤ m
      · simpa using hleast m h1 hm
      · exact houtside m fun h => h1 h.1
  · rename_i hnone
    refine .inl ⟨rfl, fun j => ?_⟩
    by_cases hj : 1 ≤ j ∧ j ≤ s.k.toNat
    · simpa using List.find?_range'_eq_none.1 hnone j hj.1 (by omega)
    · exact houtside j hj

theorem find_eq_zero_iff (s : State) (node : Index) (sym : Byte) :
    find s node sym = 0 ↔ ∀ j, s.entry j ≠ some ⟨node, sym⟩ := by
  rcases find_cases s node sym with ⟨h0, hnone⟩ | ⟨h0, hentry, -⟩
  · exact ⟨fun _ => hnone, fun _ => h0⟩
  · exact ⟨fun h => absurd h h0, fun h => absurd hentry (h _)⟩

theorem entry_find {s : State} {node : Index} {sym : Byte} (h : find s node sym ≠ 0) :
    s.entry (find s node sym).toNat = some ⟨node, sym⟩ := by
  rcases find_cases s node sym with ⟨h0, -⟩ | ⟨-, hentry, -⟩
  · exact absurd h0 h
  · exact hentry

/-- R25: the entries the engine reads are those stored at 1..K. -/
theorem entry_eq_some_iff {s : State} {j : Nat} {x : DictEntry} :
    s.entry j = some x ↔ 1 ≤ j ∧ j ≤ s.k.toNat ∧ Store.read s.dict j = some x := by
  unfold State.entry
  split
  · rename_i hj
    simp [hj]
  · rename_i hj
    simp only [reduceCtorEq, false_iff]
    exact fun ⟨h1, hk, _⟩ => hj ⟨h1, hk⟩

/-- Settles O23, by what FIND answers. -/
theorem findIsTheLeastMatch : Obligations.FindIsTheLeastMatch := by
  intro s node sym
  refine ⟨fun j hj h0 => ?_, ?_⟩
  · subst hj
    rcases find_cases s node sym with ⟨hz, -⟩ | ⟨-, hentry, hleast⟩
    · exact absurd (congrArg BitVec.toNat hz) h0
    · obtain ⟨-, hk, hread⟩ := entry_eq_some_iff.1 hentry
      exact ⟨hk, hread, fun m h1 hm hm' => hleast m hm (entry_eq_some_iff.2 ⟨h1, by omega, hm'⟩)⟩
  · rw [find_eq_zero_iff]
    exact ⟨fun h j h1 hk hread => h j (entry_eq_some_iff.2 ⟨h1, hk, hread⟩), fun h j he =>
      have ⟨h1, hk, hread⟩ := entry_eq_some_iff.1 he
      h j h1 hk hread⟩

end Sys2Proof.Machine
end

section
/-! PROOFS. The match loop of encode_inf: the slice grows over keys, up to the first that is none or the end of the source. -/

namespace Sys2Proof.Codec

/-- R121, R139: the match loop passes over keys only, and with a turn left for each longer slice it stops at one that is no
key or at the end of the rest. -/
theorem matchLength_greedy (d : KeyMap) (rest : List Byte) (fuel l : Nat) (hfuel : rest.length ≤ l + fuel) :
    (∀ m, l ≤ m → m < matchLength d rest fuel l → isKey d (rest.take m) = true) ∧
    (matchLength d rest fuel l < rest.length → isKey d (rest.take (matchLength d rest fuel l)) = false) := by
  induction fuel generalizing l with
  | zero => exact ⟨fun m h1 h2 => absurd h2 (Nat.not_lt.2 h1), fun h => absurd h (Nat.not_lt.2 hfuel)⟩
  | succ fuel ih =>
    rw [matchLength]
    split
    · rename_i hgrow
      obtain ⟨hkeys, hstop⟩ := ih (l + 1) (by omega)
      refine ⟨fun m h1 h2 => ?_, hstop⟩
      rcases Nat.eq_or_lt_of_le h1 with rfl | h1
      · exact hgrow.2
      · exact hkeys m h1 h2
    · rename_i hgrow
      exact ⟨fun m h1 h2 => absurd h2 (Nat.not_lt.2 h1), fun h => Bool.eq_false_iff.2 fun hkey => hgrow ⟨h, hkey⟩⟩

/-- Settles O54, the loop starting at length 1 with a turn for each symbol. -/
theorem encoderMatchIsGreedy : Obligations.EncoderMatchIsGreedy := by
  intro d rest hne
  obtain ⟨h1, hle⟩ := matchLength_bounds d rest rest.length 1 (List.length_pos_iff.2 hne)
  obtain ⟨hkeys, hstop⟩ := matchLength_greedy d rest rest.length 1 (Nat.le_add_left _ _)
  exact ⟨_, rfl, h1, hle, hkeys, hstop⟩

end Sys2Proof.Codec
end

section
/-! PROOFS. The map D of encode_inf pair by pair, the records it frames, and the symbols their entries hold. -/

namespace Sys2Proof.Codec

/-- R123: the pair inserted last is the one in force. -/
theorem keyIndex_cons (d : KeyMap) (e e' : List Byte) (j : Nat) :
    keyIndex ((e, j) :: d) e' = if e = e' then some j else keyIndex d e' := by
  by_cases h : e = e' <;> simp [keyIndex, h]

/-- R122: the reference to the string `e` that an entry extends, 0 to the empty string. -/
def parentIndex (d : KeyMap) (e : List Byte) : Nat := if e = [] then 0 else (keyIndex d e).getD 0

/-- R122: the record of an entry, by what comes before its last symbol. -/
theorem recordFor_append_singleton (d : KeyMap) (e : List Byte) (sym : Byte) :
    recordFor d (e ++ [sym]) = ⟨parentIndex d e, sym⟩ := by
  cases e with
  | nil => rfl
  | cons b e =>
    rw [recordFor, if_pos (by simp), List.dropLast_concat, List.getLastD_concat, parentIndex, if_neg (List.cons_ne_nil b e)]

/-- R190, R192: three bytes a record. -/
theorem frame_length (rs : List Record) : (frame rs).length = 3 * rs.length := by
  induction rs with
  | nil => rfl
  | cons x rs ih =>
    rw [frame, List.flatMap_cons, List.length_append, List.length_cons, Nat.mul_succ, Nat.add_comm, ← ih]
    rfl

/-- R191, R192: one more record, whose reference is an index, is framed behind the others. -/
theorem frame_append_record (rs : List Record) (ref : Index) (sym : Byte) :
    frame (rs ++ [⟨ref.toNat, sym⟩]) = frame rs ++ Machine.frameBytes ref sym := by
  rw [frame, frame, List.flatMap_append, List.flatMap_singleton, BitVec.ofNat_toNat, BitVec.setWidth_eq]

/-- R120: a record for each entry. -/
theorem encodeInf_length (x : List Byte) : (encodeInf x).length = (encodeEntries x).length := List.length_map _

/-- How many symbols the entries of a list of records hold. -/
def entrySymbols (res : List (Record × List Byte)) : Nat := (res.map fun re => re.2.length).sum

theorem entrySymbols_cons (re : Record × List Byte) (res : List (Record × List Byte)) :
    entrySymbols (re :: res) = re.2.length + entrySymbols res := by
  rw [entrySymbols, List.map_cons, List.sum_cons, entrySymbols]

/-- R134 (a), (e): the entries of fewer records than encode_inf answers hold fewer symbols than the source. -/
theorem entrySymbols_take_lt {x : List Byte} {j : Nat} (hj : j < (encodeInf x).length) :
    entrySymbols ((encodeEntries x).take j) < x.length := by
  rw [encodeInf_length] at hj
  have hmem : (encodeEntries x)[j] ∈ encodeFrom x.length [] 0 x := List.getElem_mem hj
  have hpos := one_le_length_of_mem_encodeFrom hmem
  have hsum := encodeEntries_lengths_sum x
  rw [← List.take_append_drop j (encodeEntries x), List.map_append, List.sum_append, List.drop_eq_getElem_cons hj,
    List.map_cons, List.sum_cons] at hsum
  unfold entrySymbols
  omega

end Sys2Proof.Codec
end

section
/-! PROOFS. The dictionary as the map D of encode_inf: its keys are the strings of the valid entries, FIND decides whether a
longer slice is a key, and a record that is new to D adds its entry to both. -/

namespace Sys2Proof.Machine

variable {s t : State} {d : Codec.KeyMap}

/-- R28: STR of a valid entry is that of its PARENT and its SYM. -/
theorem str_of_entry (hs : s.DictOk) {j : Nat} {x : DictEntry} (h : s.entry j = some x) :
    ∃ base, baseString s x.parent = some base ∧ str s j = some (base ++ [x.sym]) := by
  obtain ⟨h1, hk, hread⟩ := entry_eq_some_iff.1 h
  obtain ⟨base, hbase, hstr, -⟩ := stringOfAnEntry s j x hs h1 hk hread
  exact ⟨base, hbase, hstr⟩

/-- R25, R28: only a valid entry has a string. -/
theorem exists_entry_of_str {j : Nat} {y : List Byte} (h : str s j = some y) : ∃ x, s.entry j = some x := by
  cases j with
  | zero => cases h
  | succ j =>
    cases hx : s.entry (j + 1) with
    | none =>
      rw [str, entryString, hx] at h
      cases h
    | some x => exact ⟨x, rfl⟩

/-- R25, R28: the strings are those of the valid entries. -/
theorem str_congr (h : ∀ j, t.entry j = s.entry j) (j : Nat) : str t j = str s j := by
  have hall : ∀ fuel i, entryString t fuel i = entryString s fuel i := fun fuel => by
    induction fuel with
    | zero => exact fun _ => rfl
    | succ fuel ih => exact fun i => by simp only [entryString, h, ih]
  exact hall j j

theorem baseString_of_same_entries {node : Index} {e : List Byte} (h : baseString s node = some e)
    (hsame : ∀ j, t.entry j = s.entry j) : baseString t node = some e := by
  rw [← h, baseString, baseString, str_congr hsame]

/-- R28, R29: a record changes the string of no other entry than K + 1, PARENTs being earlier entries. -/
theorem RecordEffect.entryString_eq {e : List Byte} {x : DictEntry} (h : RecordEffect s t e x) (hs : s.DictOk)
    (fuel : Nat) {j : Nat} (hj : j ≠ s.k.toNat + 1) : entryString t fuel j = entryString s fuel j := by
  induction fuel generalizing j with
  | zero => rfl
  | succ fuel ih =>
    have hsame : t.entry j = s.entry j := (h.entry_eq j).trans (if_neg fun hn => hj hn.2)
    cases hx : s.entry j with
    | none => rw [entryString, entryString, hsame, hx]
    | some x' =>
      obtain ⟨h1, hk, -⟩ := entry_eq_some_iff.1 hx
      obtain ⟨x'', hx'', hlt⟩ := hs.entry h1 hk
      cases hx.symm.trans hx''
      rw [entryString_succ hx, entryString_succ (hsame.trans hx), ih (by omega)]

/-- R28, R132: after a record for which there is room, entry K + 1 has the record's string. -/
theorem RecordEffect.str_eq {e base : List Byte} {x : DictEntry} (h : RecordEffect s t e x) (hs : s.DictOk)
    (hcfg : t.cfg = s.cfg) (hroom : s.k.toNat < s.cfg.dictCap) (hbase : baseString s x.parent = some base) (j : Nat) :
    str t j = if j = s.k.toNat + 1 then some (base ++ [x.sym]) else str s j := by
  split
  · rename_i hj
    obtain ⟨base', hbase', hstr⟩ := str_of_entry (h.dictOk hcfg hs) ((h.entry_eq j).trans (if_pos ⟨hroom, hj⟩))
    have hparent : x.parent.toNat ≠ s.k.toNat + 1 := by
      rcases h.entry with ⟨-, hle, -⟩ | ⟨hfull, -⟩ <;> omega
    rw [baseString, str, h.entryString_eq hs _ hparent, ← str, ← baseString, hbase] at hbase'
    cases hbase'
    exact hstr
  · rename_i hj
    exact h.entryString_eq hs j hj

/-- R120, R124: the map D of encode_inf in the dictionary: its keys are the strings of the valid entries, each with the
entry's index. -/
def State.Represents (s : State) (d : Codec.KeyMap) : Prop :=
  ∀ (e : List Byte) (j : Nat), Codec.keyIndex d e = some j ↔ str s j = some e

theorem State.Represents.of_same_entries (hd : s.Represents d) (hsame : ∀ j, t.entry j = s.entry j) :
    t.Represents d := fun e j => (hd e j).trans (by rw [str_congr hsame])

/-- R120, R217: both are empty at a command's start. -/
theorem represents_start (s : State) (ph : Phase) : (s.start ph).Represents [] := by
  refine fun e j => ⟨nofun, fun h => ?_⟩
  obtain ⟨x, hx⟩ := exists_entry_of_str h
  rw [entry_start] at hx
  cases hx

/-- R122: a node is the reference to its own string. -/
theorem State.Represents.parentIndex_eq (hd : s.Represents d) (hs : s.DictOk) {node : Index} {e : List Byte}
    (h : baseString s node = some e) : Codec.parentIndex d e = node.toNat := by
  unfold baseString at h
  split at h
  · rename_i h0
    cases h
    rw [h0]
    rfl
  · obtain ⟨x, hx⟩ := exists_entry_of_str h
    obtain ⟨base, -, hstr⟩ := str_of_entry hs hx
    cases h.symm.trans hstr
    rw [Codec.parentIndex, if_neg (by simp), (hd _ _).2 h]
    rfl

/-- R124, R131: the entry FIND answers extends the node's string by the symbol. -/
theorem baseString_find (hs : s.DictOk) {node : Index} {sym : Byte} {e : List Byte} (h : baseString s node = some e)
    (hfind : find s node sym ≠ 0) : baseString s (find s node sym) = some (e ++ [sym]) := by
  obtain ⟨base, hbase, hstr⟩ := str_of_entry hs (entry_find hfind)
  cases h.symm.trans hbase
  rw [baseString, if_neg hfind, hstr]

/-- R121, R124: the slice grown by a symbol is a key exactly when FIND answers an entry for the slice's node and the symbol;
a key's entry has that node as its PARENT, a node being told by its string. -/
theorem State.Represents.isKey_iff (hd : s.Represents d) (hs : s.DictOk) {node : Index} {sym : Byte} {e : List Byte}
    (h : baseString s node = some e) : Codec.isKey d (e ++ [sym]) = true ↔ find s node sym ≠ 0 := by
  constructor
  · intro hkey hzero
    obtain ⟨j, hj⟩ := Option.isSome_iff_exists.1 hkey
    have hstr := (hd _ _).1 hj
    obtain ⟨⟨parent, sym'⟩, hx⟩ := exists_entry_of_str hstr
    obtain ⟨base, hbase, hstr'⟩ := str_of_entry hs hx
    obtain ⟨rfl, hsym⟩ := List.append_inj' (Option.some.inj (hstr.symm.trans hstr')) rfl
    cases hsym
    have hparent : parent = node :=
      BitVec.eq_of_toNat_eq ((hd.parentIndex_eq hs hbase).symm.trans (hd.parentIndex_eq hs h))
    exact (find_eq_zero_iff _ _ _).1 hzero j (hparent ▸ hx)
  · intro hfind
    have hstr := baseString_find hs h hfind
    rw [baseString, if_neg hfind] at hstr
    exact Option.isSome_iff_exists.2 ⟨_, (hd _ _).2 hstr⟩

/-- R123, R132: a record whose string is no key yet adds the same pair to the dictionary as to D. -/
theorem State.Represents.record (hd : s.Represents d) (hs : s.DictOk) {e base : List Byte} {x : DictEntry}
    (h : RecordEffect s t e x) (hcfg : t.cfg = s.cfg) (hroom : s.k.toNat < s.cfg.dictCap)
    (hbase : baseString s x.parent = some base) (hnew : Codec.isKey d (base ++ [x.sym]) = false) :
    t.Represents ((base ++ [x.sym], s.k.toNat + 1) :: d) := by
  have hfresh : Codec.keyIndex d (base ++ [x.sym]) = none := by simpa [Codec.isKey] using hnew
  have hunused : str s (s.k.toNat + 1) = none := by
    rw [str, entryString, State.entry, if_neg (by omega)]
  intro e' j
  rw [Codec.keyIndex_cons, h.str_eq hs hcfg hroom hbase]
  by_cases he : base ++ [x.sym] = e'
  · by_cases hj : j = s.k.toNat + 1
    · simp [he, hj]
    · have hno : str s j ≠ some e' := fun hstr => by
        rw [← hd, ← he, hfresh] at hstr
        cases hstr
      simp [he, hj, hno, Ne.symm hj]
  · by_cases hj : j = s.k.toNat + 1
    · simp [he, hj, hd e' _, hunused]
    · simp [he, hj, hd e' j]

end Sys2Proof.Machine
end

section
/-! PROOFS. Runs of a busy engine, step by step. -/

namespace Sys2Proof.Machine

/-- `m` engine steps, each from a busy state. -/
inductive BusyRun : Nat → State → State → Prop where
  /-- No step. -/
  | refl (s : State) : BusyRun 0 s s
  /-- A step of the busy engine, and the others. -/
  | step {m : Nat} {s t u : State} (hb : s.busy = true) (h : engineStep s = .next t) (hr : BusyRun m t u) :
      BusyRun (m + 1) s u

variable {m m' : Nat} {s t u : State}

theorem BusyRun.trans (h : BusyRun m s t) (h' : BusyRun m' t u) : BusyRun (m + m') s u := by
  induction h with
  | refl => rwa [Nat.zero_add]
  | step hb h _ ih =>
    rw [Nat.succ_add]
    exact .step hb h (ih h')

theorem engineRun_succ (h : engineStep s = .next t) (m : Nat) : engineRun (m + 1) s = engineRun m t := by
  rw [engineRun, h]

theorem BusyRun.engineRun_eq (h : BusyRun m s t) : engineRun m s = .next t := by
  induction h with
  | refl => rfl
  | step _ h _ ih => rwa [engineRun_succ h]

/-- Before its end the run is at a busy state. -/
theorem BusyRun.busy_before (h : BusyRun m s t) (hm : m' < m) : ∃ u, engineRun m' s = .next u ∧ u.busy = true := by
  induction h generalizing m' with
  | refl => exact absurd hm (Nat.not_lt_zero _)
  | @step _ s _ _ hb h _ ih =>
    cases m' with
    | zero => exact ⟨s, rfl, hb⟩
    | succ m' =>
      obtain ⟨u, hu, hub⟩ := ih (Nat.lt_of_succ_lt_succ hm)
      exact ⟨u, (engineRun_succ h m').trans hu, hub⟩

theorem engineStep_cfg (h : engineStep s = .next t) : t.cfg = s.cfg := by
  rcases engineUpdate_of_engineStep h with ⟨-, rfl⟩ | hu
  · rfl
  · exact hu.keeps.1

/-- R20: the parameters never change. -/
theorem BusyRun.cfg_eq (h : BusyRun m s t) : t.cfg = s.cfg := by
  induction h with
  | refl => rfl
  | step _ h _ ih => exact ih.trans (engineStep_cfg h)

/-- R33: a phase other than IDLE is a busy one. -/
theorem State.Inv.busy (hs : s.Inv) (hp : s.phase ≠ .idle) : s.busy = true := hs.flagsOk.1.2 hp

end Sys2Proof.Machine
end

section
/-! PROOFS. The ENCODE steps against encode_inf: the points a run passes between two records and inside a match, and the steps
from point to point. -/

namespace Sys2Proof.Machine

open Sys2Proof.Codec

/-- A running ENCODE of `x` that has emitted the records `rs`, whose entries are the first `pos` symbols of `x`. -/
structure State.Encoded (s : State) (x : List Byte) (rs : List Record) (pos : Nat) : Prop where
  inv : s.Inv
  clean : s.tainted = false
  length : s.n.toNat = x.length
  input : s.inHolds x
  cursor : s.i.toNat = pos
  count : s.k.toNat = rs.length
  output : s.outHolds (frame rs)

/-- Between two records (R130). The dictionary is the map `d` while symbols are left: the last record's string may have been a
key before (R127, R139). -/
structure State.BetweenRecords (s : State) (d : KeyMap) (x : List Byte) (rs : List Record) (pos : Nat) : Prop
    extends s.Encoded x rs pos where
  phase : s.phase = .eBegin
  keys : pos < x.length → s.Represents d

/-- In a match of which `m` symbols are passed (R131): P stands `m` symbols past the cursor, and C is their node. -/
structure State.InMatch (s : State) (d : KeyMap) (x : List Byte) (rs : List Record) (pos m : Nat) : Prop
    extends s.Encoded x rs pos where
  phase : s.phase = .eSym
  keys : s.Represents d
  position : s.p.toNat = pos + m
  node : baseString s s.c = some ((x.drop pos).take m)

variable {s : State} {d : KeyMap} {x : List Byte} {rs : List Record} {pos m : Nat}

theorem State.BetweenRecords.tick (h : s.BetweenRecords d x rs pos) : s.tick.BetweenRecords d x rs pos :=
  { h with keys := fun hpos => (h.keys hpos).of_same_entries fun _ => rfl }

theorem State.InMatch.tick (h : s.InMatch d x rs pos m) : s.tick.InMatch d x rs pos m :=
  { h with keys := h.keys.of_same_entries fun _ => rfl, node := baseString_of_same_entries h.node fun _ => rfl }

/-- R217: ENCODE starts before the first record. -/
theorem betweenRecords_start (hs : s.Inv) (hlen : s.inLen.toNat = x.length) (hin : s.inHolds x) :
    (s.start .eBegin).BetweenRecords [] x [] 0 where
  inv := hs.start (.inl rfl)
  clean := rfl
  length := hlen
  input := hin
  cursor := rfl
  count := rfl
  output := nofun
  phase := rfl
  keys _ := represents_start s .eBegin

/-- R134 (c): R and O are counted by the records too. -/
theorem State.BetweenRecords.counters (h : s.BetweenRecords d x rs pos) :
    s.r.toNat = rs.length ∧ s.o.toNat = 3 * rs.length := by
  obtain ⟨-, ho, hk, -⟩ := h.inv.encodeOk (.inl h.phase)
  have := h.count
  omega

/-- R40, R41: no error is recorded while a command runs. -/
theorem State.BetweenRecords.noError (h : s.BetweenRecords d x rs pos) : s.errPos = 0 ∧ s.errInfo = 0 := by
  have hbusy := h.inv.busy (by simp [h.phase])
  obtain ⟨-, hexcl, herr, -⟩ := h.inv.flagsOk
  exact (herr (by simpa using fun hd => hexcl ⟨hbusy, hd⟩)).2

/-- R24, R130: I = N when the records use up the source. -/
theorem State.BetweenRecords.end_iff (h : s.BetweenRecords d x rs pos) : s.i = s.n ↔ pos = x.length := by
  rw [← BitVec.toNat_inj, h.cursor, h.length]

/-- R130: with symbols left and room for an entry, an empty match begins at the cursor. -/
theorem State.BetweenRecords.begin (h : s.BetweenRecords d x rs pos) (hpos : pos < x.length)
    (hroom : rs.length < s.cfg.dictCap) : ∃ t, engineEBegin s = .next t ∧ t.InMatch d x rs pos 0 := by
  have hi : s.i ≠ s.n := mt h.end_iff.1 hpos.ne
  have hk : s.k.toNat ≠ s.cfg.dictCap := h.count ▸ hroom.ne
  have hinv : s.beginRecord.Inv := (EngineUpdate.beginRecord h.phase hi hk).inv h.inv
  exact ⟨_, engineEBegin_of_room hi hk, { h with
    inv := hinv, phase := rfl, keys := (h.keys hpos).of_same_entries fun _ => rfl, position := h.cursor, node := rfl }⟩

/-- R131: while the match has not used up the source, E_SYM reads the symbol by which it grows. -/
theorem State.InMatch.reads (h : s.InMatch d x rs pos m) (hm : m < (x.drop pos).length) :
    ∃ sym, engineReadIn s s.p.toNat = .ok sym ∧ (x.drop pos).take (m + 1) = (x.drop pos).take m ++ [sym] := by
  have hlen : pos + m < x.length := by
    rw [List.length_drop] at hm
    omega
  obtain ⟨-, -, -, -, hn, -⟩ := h.inv.flagsOk
  have hmax : pos + m < s.cfg.inMax := hlen.trans_le (h.length ▸ hn)
  refine ⟨(x.drop pos)[m], engineReadIn_ok.2 ⟨h.position ▸ hmax, ?_⟩, List.take_succ_eq_append_getElem hm⟩
  rw [h.position, h.input _ hlen, List.getElem_drop, List.getElem?_eq_getElem hlen]

/-- R127: E_SYM is on the last symbol when the match grown by it is the whole rest. -/
theorem State.InMatch.last_iff (h : s.InMatch d x rs pos m) :
    s.p.toNat + 1 = s.n.toNat ↔ pos + (m + 1) = x.length := by
  rw [h.position, h.length, Nat.add_assoc]

/-- R23: P moves on without wrapping. -/
theorem State.InMatch.next_position (h : s.InMatch d x rs pos m) (hm : pos + m < x.length) :
    (s.p + 1).toNat = pos + (m + 1) := by
  have hp := h.position
  have hlen := h.length
  have hn := s.n.isLt
  bv_omega

/-- R121, R131: E_SYM extends the match where the grown slice is a key and more symbols follow. -/
theorem State.InMatch.extend (h : s.InMatch d x rs pos m) (hm : m + 1 < (x.drop pos).length)
    (hkey : isKey d ((x.drop pos).take (m + 1)) = true) :
    ∃ t, engineESym s = .next t ∧ t.InMatch d x rs pos (m + 1) := by
  obtain ⟨sym, hread, htake⟩ := h.reads (Nat.lt_of_succ_lt hm)
  rw [htake] at hkey
  rw [List.length_drop] at hm
  have hfind := (h.keys.isKey_iff h.inv.dictOk h.node).1 hkey
  have hlast : s.p.toNat + 1 ≠ s.n.toNat := mt h.last_iff.1 (by omega)
  have hinv : (s.extendMatch (find s s.c sym)).Inv :=
    (EngineUpdate.extendMatch sym h.phase (Bool.eq_false_iff.2 (mt atLastSymbol_iff.1 hlast))).inv h.inv
  have hnode : baseString s (find s s.c sym) = some ((x.drop pos).take (m + 1)) :=
    htake ▸ baseString_find h.inv.dictOk h.node hfind
  exact ⟨_, engineESym_of_extend hread hlast hfind, { h with
    inv := hinv, keys := h.keys.of_same_entries fun _ => rfl, position := h.next_position (by omega)
    node := baseString_of_same_entries hnode fun _ => rfl }⟩

/-- R63, R134 (c): bytes appended at O behind those of OUT. -/
theorem outHolds_append {t : State} {e w : List Byte} {y : DictEntry} (h : RecordEffect s t e y) (hw : s.outHolds w)
    (ho : s.o.toNat = w.length) : t.outHolds (w ++ e) := by
  intro a ha
  rw [List.length_append] at ha
  rw [h.outBuf, readByte_writeBytes, List.getElem?_append, ho]
  by_cases hlt : a < w.length
  · rw [if_neg (by omega), if_pos hlt, hw a hlt]
  · rw [if_pos (by omega), if_neg hlt]

/-- R122, R127, R131, R132: E_SYM emits encode_inf's record where the grown slice is no key or is the whole rest. -/
theorem State.InMatch.emit (h : s.InMatch d x rs pos m) (hm : m + 1 ≤ (x.drop pos).length)
    (hstop : m + 1 < (x.drop pos).length → isKey d ((x.drop pos).take (m + 1)) = false) :
    ∃ t, engineESym s = .next t ∧ t.BetweenRecords (((x.drop pos).take (m + 1), rs.length + 1) :: d) x
      (rs ++ [recordFor d ((x.drop pos).take (m + 1))]) (pos + (m + 1)) := by
  obtain ⟨sym, hread, htake⟩ := h.reads hm
  rw [List.length_drop] at hm hstop
  rw [htake] at hstop ⊢
  have hdict := h.inv.dictOk
  have ho := h.inv.outRoom h.phase
  obtain ⟨-, -, -, hk⟩ := h.inv.matchOk h.phase
  obtain ⟨-, hor, hkr, -⟩ := h.inv.encodeOk (.inr h.phase)
  have hcount := h.count
  have hemit : s.p.toNat + 1 = s.n.toNat ∨ find s s.c sym = 0 := by
    rw [h.last_iff]
    by_cases hlast : pos + (m + 1) = x.length
    · exact .inl hlast
    · have hnew := hstop (by omega)
      exact .inr (not_not.1 (mt (h.keys.isKey_iff hdict h.node).2 (Bool.eq_false_iff.1 hnew)))
  have heffect := recordEffect_emitted h.inv sym h.phase ho hk
  refine ⟨_, engineESym_of_emit hread hemit ho hk, { h with
    inv := (EngineUpdate.emit sym h.phase ho hk).inv h.inv, cursor := h.next_position (by omega), phase := rfl
    count := ?_, output := ?_, keys := fun hleft => ?_ }⟩
  · rw [List.length_append, ← hcount]
    rcases heffect.entry with ⟨-, -, -, hk'⟩ | ⟨hfull, -⟩
    · exact hk'
    · omega
  · rw [recordFor_append_singleton, h.keys.parentIndex_eq hdict h.node, frame_append_record]
    exact outHolds_append heffect h.output (by rw [frame_length]; omega)
  · rw [← hcount]
    exact h.keys.record hdict heffect rfl hk h.node (hstop (by omega))

/-- R140: an E_BEGIN step of the running engine. -/
theorem State.BetweenRecords.busyStep {t : State} (h : s.BetweenRecords d x rs pos) (hstep : engineEBegin s.tick = .next t) :
    BusyRun 1 s t :=
  .step (h.inv.busy (by simp [h.phase])) ((engineStep_of_eBegin h.phase).trans hstep) (.refl t)

/-- R140: an E_SYM step of the running engine. -/
theorem State.InMatch.busyStep {t : State} (h : s.InMatch d x rs pos m) (hstep : engineESym s.tick = .next t) :
    BusyRun 1 s t :=
  .step (h.inv.busy (by simp [h.phase])) ((engineStep_of_eSym h.phase).trans hstep) (.refl t)

/-- R121: the match runs over the slices that are keys, one symbol a step. -/
theorem State.InMatch.run (h : s.InMatch d x rs pos 0) (m : Nat) (hm : m < (x.drop pos).length)
    (hkeys : ∀ l, 1 ≤ l → l ≤ m → isKey d ((x.drop pos).take l) = true) :
    ∃ t, BusyRun m s t ∧ t.InMatch d x rs pos m := by
  induction m with
  | zero => exact ⟨s, .refl s, h⟩
  | succ m ih =>
    obtain ⟨t, hrun, ht⟩ := ih (Nat.lt_of_succ_lt hm) fun l h1 hl => hkeys l h1 (Nat.le_succ_of_le hl)
    obtain ⟨u, hstep, hu⟩ := ht.tick.extend hm (hkeys (m + 1) (Nat.le_add_left 1 m) le_rfl)
    exact ⟨u, hrun.trans (ht.busyStep hstep), hu⟩

/-- R120, R135: a turn of encode_inf is one E_BEGIN and an E_SYM for each symbol of its entry. -/
theorem State.BetweenRecords.turn (h : s.BetweenRecords d x rs pos) (hrest : x.drop pos ≠ [])
    (hroom : rs.length < s.cfg.dictCap) :
    ∃ t, BusyRun ((nextEntry d (x.drop pos)).length + 1) s t ∧
      t.BetweenRecords ((nextEntry d (x.drop pos), rs.length + 1) :: d) x
        (rs ++ [recordFor d (nextEntry d (x.drop pos))]) (pos + (nextEntry d (x.drop pos)).length) := by
  obtain ⟨l, hl, h1, hle, hkeys, hstop⟩ := encoderMatchIsGreedy d (x.drop pos) hrest
  obtain ⟨m, rfl⟩ := Nat.exists_eq_add_of_le' h1
  have hlen : (nextEntry d (x.drop pos)).length = m + 1 := by
    rw [nextEntry, hl, List.length_take, Nat.min_eq_left hle]
  rw [hlen, nextEntry, hl]
  obtain ⟨t, hbegin, ht⟩ := h.tick.begin (by simpa using hrest) hroom
  obtain ⟨u, hrun, hu⟩ := ht.run m hle fun l h1 hl => hkeys l h1 (Nat.lt_succ_of_le hl)
  obtain ⟨v, hemit, hv⟩ := hu.tick.emit hle hstop
  refine ⟨v, ?_, hv⟩
  rw [Nat.add_comm]
  exact (h.busyStep hbegin).trans (hrun.trans (hu.busyStep hemit))

end Sys2Proof.Machine
end

section
/-! PROOFS. Whole runs of ENCODE: the turns of encode_inf one after the other, then completion or CAPACITY_EXCEEDED. -/

namespace Sys2Proof.Machine

open Sys2Proof.Codec

variable {s : State} {d : KeyMap} {x : List Byte} {rs : List Record} {pos : Nat}

/-- R135: after the steps of `j` turns of encode_inf, the dictionary having had room for their entries, their records are
emitted and as many symbols as their entries hold are consumed. -/
theorem State.BetweenRecords.turns {j fuel : Nat} (h : s.BetweenRecords d x rs pos)
    (hj : j ≤ (encodeFrom fuel d rs.length (x.drop pos)).length) (hroom : rs.length + j ≤ s.cfg.dictCap) :
    ∃ t d', BusyRun (entrySymbols ((encodeFrom fuel d rs.length (x.drop pos)).take j) + j) s t ∧
      t.BetweenRecords d' x (rs ++ ((encodeFrom fuel d rs.length (x.drop pos)).take j).map Prod.fst)
        (pos + entrySymbols ((encodeFrom fuel d rs.length (x.drop pos)).take j)) := by
  induction j generalizing fuel s d rs pos with
  | zero => exact ⟨s, d, .refl s, by simpa [entrySymbols] using h⟩
  | succ j ih =>
    obtain _ | fuel := fuel
    · exact absurd hj (Nat.not_succ_le_zero j)
    have hrest : x.drop pos ≠ [] := fun h0 => by
      rw [h0, encodeFrom_nil] at hj
      exact absurd hj (Nat.not_succ_le_zero j)
    rw [encodeFrom_succ hrest, List.drop_drop] at hj ⊢
    obtain ⟨t, hrun, ht⟩ := h.turn hrest (by omega)
    have hlen : (rs ++ [recordFor d (nextEntry d (x.drop pos))]).length = rs.length + 1 := List.length_append
    obtain ⟨u, d', hrun', hu⟩ := ih (fuel := fuel) ht (by rw [hlen]; exact Nat.le_of_succ_le_succ hj)
      (by rw [hrun.cfg_eq, hlen]; omega)
    rw [hlen] at hrun' hu
    rw [Nat.add_assoc, ← List.append_cons] at hu
    rw [List.take_succ_cons, entrySymbols_cons, List.map_cons, Nat.add_comm j 1, Nat.add_add_add_comm]
    exact ⟨u, d', hrun.trans hrun', hu⟩

/-- R135: the turns of encode_inf from the command's start. -/
theorem exists_betweenRecords (hs : s.Inv) (hlen : s.inLen.toNat = x.length) (hin : s.inHolds x) {j : Nat}
    (hj : j ≤ (encodeInf x).length) (hroom : j ≤ s.cfg.dictCap) :
    ∃ (t : State) (d : KeyMap), BusyRun (entrySymbols ((encodeEntries x).take j) + j) (s.start .eBegin) t ∧
      t.BetweenRecords d x ((encodeInf x).take j) (entrySymbols ((encodeEntries x).take j)) := by
  have hturns := (betweenRecords_start hs hlen hin).turns (j := j) (fuel := x.length)
  rw [List.drop_zero, List.length_nil, Nat.zero_add, Nat.zero_add, List.nil_append, List.map_take] at hturns
  exact hturns (by rwa [encodeInf_length] at hj) hroom

/-- R133, R135: with room for every entry, the run completes after the turns of encode_inf. -/
theorem encodeRun_completes (hs : s.Inv) (hlen : s.inLen.toNat = x.length) (hin : s.inHolds x)
    (hroom : (encodeInf x).length ≤ s.cfg.dictCap) :
    ∃ (t : State) (d : KeyMap), BusyRun (x.length + (encodeInf x).length + 1) (s.start .eBegin) t.tick.complete ∧
      t.BetweenRecords d x (encodeInf x) x.length := by
  obtain ⟨t, d, hrun, ht⟩ := exists_betweenRecords hs hlen hin le_rfl hroom
  have hall : (encodeEntries x).take (encodeInf x).length = encodeEntries x := by
    rw [encodeInf_length, List.take_length]
  rw [hall, entrySymbols, encodeEntries_lengths_sum] at hrun ht
  rw [List.take_length] at ht
  exact ⟨t, d, hrun.trans (ht.busyStep (engineEBegin_of_end (ht.end_iff.2 rfl))), ht⟩

/-- R129, R135, R232: with more records than there is room for, the run takes CAPACITY_EXCEEDED after the turns that fill the
dictionary. -/
theorem encodeRun_exceeds (hs : s.Inv) (hlen : s.inLen.toNat = x.length) (hin : s.inHolds x)
    (hfull : s.cfg.dictCap < (encodeInf x).length) :
    ∃ (t : State) (d : KeyMap),
      BusyRun (entrySymbols ((encodeEntries x).take s.cfg.dictCap) + s.cfg.dictCap + 1) (s.start .eBegin)
        (t.tick.raise .capacityExceeded t.i 0) ∧
      t.BetweenRecords d x ((encodeInf x).take s.cfg.dictCap) (entrySymbols ((encodeEntries x).take s.cfg.dictCap)) := by
  obtain ⟨t, d, hrun, ht⟩ := exists_betweenRecords hs hlen hin hfull.le le_rfl
  have hleft := entrySymbols_take_lt hfull
  have hk : t.k.toNat = t.cfg.dictCap := by
    rw [ht.count, List.length_take, Nat.min_eq_left hfull.le, hrun.cfg_eq, State.start_cfg]
  exact ⟨t, d, hrun.trans (ht.busyStep (engineEBegin_of_full (s := t.tick) (mt ht.end_iff.1 hleft.ne) hk)), ht⟩

/-- Settles O57: in either case the run's last update keeps the counters and OUT of the point before it. -/
theorem encodeStepsComputeEncode : Obligations.EncodeStepsComputeEncode := by
  intro s x hs _ hlen hin
  by_cases hroom : (encodeInf x).length ≤ s.cfg.dictCap
  · rw [encode, if_pos hroom]
    refine ⟨fun rs hrs => ?_, nofun⟩
    cases hrs
    obtain ⟨t, d, hrun, ht⟩ := encodeRun_completes hs hlen hin hroom
    obtain ⟨hr, ho⟩ := ht.counters
    obtain ⟨hpos, hinfo⟩ := ht.noError
    exact ⟨⟨_, hrun.engineRun_eq, rfl, statusWord_complete ht.tick.clean, hr, ht.count, ho, ht.output, hpos, hinfo⟩,
      fun _ => hrun.busy_before⟩
  · rw [encode, if_neg hroom]
    refine ⟨nofun, fun pos hpos => ?_⟩
    obtain rfl : entrySymbols ((encodeEntries x).take s.cfg.dictCap) = pos := EncodeResult.capacityExceeded.inj hpos
    have hfull := Nat.lt_of_not_le hroom
    obtain ⟨t, d, hrun, ht⟩ := encodeRun_exceeds hs hlen hin hfull
    obtain ⟨hr, ho⟩ := ht.counters
    have hcount := ht.count
    rw [List.length_take, Nat.min_eq_left hfull.le] at hr ho hcount
    exact ⟨⟨_, hrun.engineRun_eq, rfl, statusWord_raise ht.tick.clean .capacityExceeded _ _, hr, hcount, ho,
      ht.output, ht.cursor, rfl⟩, fun _ => hrun.busy_before⟩

end Sys2Proof.Machine
end

section
/-! PROOFS. The records and the DECODE steps: one equation per arm of a record's execution, of D_BEGIN and of D_REC, and what a
record leaves unchanged. -/

namespace Sys2Proof.Machine

variable {s t : State} {ref : Index} {sym : Byte} {base : List Byte}

/-- R27: a reference other than 0 stands for that entry's string. -/
theorem baseString_of_ne_zero (h : ref ≠ 0) : baseString s ref = str s ref.toNat := if_neg h

/-- R163, R240: an entry not yet created, whatever room OUT has. -/
theorem runRecord_of_badReference (href : s.r.toNat < ref.toNat) :
    runRecord ref sym s = .next (s.raise .corruptBadReference (errRecordPos s) (ref.zeroExtend 32)) := if_pos href

/-- R165: no room in OUT for the record's entry. -/
theorem runRecord_of_overflow (href : ref.toNat ≤ s.r.toNat) (hbase : baseString s ref = some base)
    (ho : s.cfg.outMax < s.o.toNat + (base ++ [sym]).length) :
    runRecord ref sym s = .next (s.raise .outputOverflow (errRecordPos s) 0) := by
  rw [runRecord, if_neg (Nat.not_lt.2 href), hbase]
  exact if_pos ho

/-- R164, R165, R167: room for the record's entry. -/
theorem runRecord_of_room (href : ref.toNat ≤ s.r.toNat) (hbase : baseString s ref = some base)
    (ho : s.o.toNat + (base ++ [sym]).length ≤ s.cfg.outMax) :
    runRecord ref sym s = .next (s.appended ref sym (base ++ [sym])) := by
  rw [runRecord, if_neg (Nat.not_lt.2 href), hbase]
  exact if_neg (Nat.not_lt.2 ho)

/-- Settles O10: a literal extends the empty string, and O + 1 is the sum in the width of O. -/
theorem literalRecordAppends : Obligations.LiteralRecordAppends := by
  intro s sym ho
  have hsum : BitVec.ofNat 32 (s.o.toNat + 1) = s.o + 1 := by simp [BitVec.ofNat_add]
  rw [← hsum]
  exact runRecord_of_room (s := s) (ref := 0) (base := []) (Nat.zero_le _) rfl ho

/-- Settles O11. -/
theorem extensionRecordAppends : Obligations.ExtensionRecordAppends := by
  intro s ref sym base hne href hstr ho
  have hlen : (base ++ [sym]).length = base.length + 1 := List.length_append
  rw [← hlen] at ho ⊢
  exact runRecord_of_room href ((baseString_of_ne_zero hne).trans hstr) ho

/-- Settles O12. -/
theorem badReferenceIsTaken : Obligations.BadReferenceIsTaken := fun _ _ _ => runRecord_of_badReference

/-- Settles O13, LIT extending the empty string. -/
theorem outputOverflowIsTaken : Obligations.OutputOverflowIsTaken := by
  intro s sym
  refine ⟨runRecord_of_overflow (s := s) (ref := 0) (base := []) (Nat.zero_le _) rfl,
    fun ref base hne href hstr ho => ?_⟩
  have hlen : (base ++ [sym]).length = base.length + 1 := List.length_append
  exact runRecord_of_overflow href ((baseString_of_ne_zero hne).trans hstr) (hlen ▸ ho)

/-- R163 to R167: a record takes some error or has its entry appended. -/
theorem runRecord_raises_or_appends (h : runRecord ref sym s = .next t) :
    (∃ e pos info, t = s.raise e pos info) ∨
    ∃ base, baseString s ref = some base ∧ t = s.appended ref sym (base ++ [sym]) := by
  rcases runRecord_cases h with ⟨-, ht⟩ | ⟨base, -, hbase, ⟨-, ht⟩ | ⟨-, ht⟩⟩
  · exact .inl ⟨_, _, _, ht⟩
  · exact .inl ⟨_, _, _, ht⟩
  · exact .inr ⟨base, hbase, ht⟩

/-- R165: an appended entry lies in OUT from O on, and only there. -/
theorem readByte_outBuf_appended {e : List Byte} {a : Nat} (ha : a < s.o.toNat ∨ s.o.toNat + e.length ≤ a) :
    readByte (s.appended ref sym e).outBuf a = readByte s.outBuf a := by
  rw [State.appended_outBuf, readByte_writeBytes, if_neg (by omega)]

/-- R164: an appended record stores no other entry than R + 1. -/
theorem read_dict_appended {e : List Byte} {j : Nat} (hj : j ≠ s.r.toNat + 1) :
    Store.read (s.appended ref sym e).dict j = Store.read s.dict j := by
  rw [State.appended_dict]
  split
  · exact Store.read_write_other _ _ _ _ hj
  · rfl

/-- Settles O14: an error writes flags and the error record only, an appended entry its own bytes and its own index. -/
theorem recordFrame : Obligations.RecordFrame := by
  intro s t ref sym i hi h
  have hrun : runRecord ref sym s = .next t := by
    rcases hi with ⟨rfl, rfl⟩ | rfl <;> exact h
  rcases runRecord_raises_or_appends hrun with ⟨e, pos, info, rfl⟩ | ⟨base, hbase, rfl⟩
  · exact ⟨rfl, rfl, rfl, rfl, rfl, rfl, rfl, rfl, rfl, rfl, rfl, rfl, fun _ => rfl, fun _ _ _ _ => rfl, fun _ _ => rfl,
      .inl ⟨rfl, rfl, rfl, rfl, rfl, rfl, fun _ => rfl, fun _ => rfl⟩⟩
  · refine ⟨rfl, rfl, rfl, rfl, rfl, rfl, rfl, rfl, rfl, rfl, rfl, rfl, fun _ => rfl, fun base' hbase' a ha => ?_,
      fun _ => read_dict_appended, .inr ⟨rfl, rfl, rfl, rfl, rfl, rfl, rfl⟩⟩
    cases hbase.symm.trans hbase'
    exact readByte_outBuf_appended (by simpa using ha)

/-- R166, R193: D_BEGIN on a length that is no multiple of 3. -/
theorem engineDBegin_of_mod_ne (h : s.n.toNat % 3 ≠ 0) : engineDBegin s = .next (s.raise .corruptTruncated s.n 0) :=
  if_pos h

/-- R166: D_BEGIN on whole records. -/
theorem engineDBegin_of_mod (h : s.n.toNat % 3 = 0) : engineDBegin s = .next s.enterRecords := if_neg (not_not_intro h)

/-- Settles O25, arm by arm. -/
theorem streamLengthCheck : Obligations.StreamLengthCheck := fun _ => ⟨engineDBegin_of_mod_ne, engineDBegin_of_mod⟩

/-- R167: whether all records are done, by the record position. -/
theorem allRecordsDone_iff : s.allRecordsDone = true ↔ s.recordPos = s.n.toNat := beq_iff_eq

/-- R167, R195: D_REC with a record left whose three bytes are readable. -/
theorem engineDRec_of_record {b0 b1 b2 : Byte} (h : s.recordPos ≠ s.n.toNat) (hread : deser s s.recordPos = .ok (b0, b1, b2)) :
    engineDRec s = exec (decodeRecord b0 b1 b2) s := by
  rw [engineDRec, if_neg (mt allRecordsDone_iff.1 h), hread]

/-- R195: DESER reads three written bytes below IN_MAX. -/
theorem deser_of_written {a : Nat} {b0 b1 b2 : Byte} (ha : a + 2 < s.cfg.inMax) (h0 : readByte s.inBuf a = some b0)
    (h1 : readByte s.inBuf (a + 1) = some b1) (h2 : readByte s.inBuf (a + 2) = some b2) : deser s a = .ok (b0, b1, b2) :=
  deser_ok.2 ⟨engineReadIn_ok.2 ⟨by omega, h0⟩, engineReadIn_ok.2 ⟨by omega, h1⟩, engineReadIn_ok.2 ⟨ha, h2⟩⟩

/-- Settles O16: the turn is the engine's, its phase D_REC, and the record is readable. -/
theorem stepRunsTheDecodedRecord : Obligations.StepRunsTheDecodedRecord := by
  intro s b0 b1 b2 hturn hp hleft hmax h0 h1 h2
  calc step s = engineDRec s.popTurn.tick := (step_of_engineTurn hturn).trans (engineStep_of_dRec hp)
    _ = exec (decodeRecord b0 b1 b2) s.popTurn.tick :=
        engineDRec_of_record (s := s.popTurn.tick) hleft (deser_of_written (s := s.popTurn.tick) hmax h0 h1 h2)

end Sys2Proof.Machine
end

section
/-! PROOFS. The decoder's loop: the entries a list of records creates, with which decode of encode's records gives the source
back. -/

namespace Sys2Proof.Codec

/-- Records that each refer to an entry created before them, after the entries `es`, and the entries there are then (R160). -/
inductive Creates : List (List Byte) → List Record → List (List Byte) → Prop where
  /-- No record. -/
  | nil (es : List (List Byte)) : Creates es [] es
  /-- A record, which creates the entry `e`, and the others. -/
  | cons {es es' : List (List Byte)} {x : Record} {e : List Byte} {xs : List Record} (hx : entryFor es x = some e)
      (hxs : Creates (es ++ [e]) xs es') : Creates es (x :: xs) es'

variable {es es' : List (List Byte)} {x : Record} {e : List Byte} {xs : List Record}

theorem Creates.length_eq (h : Creates es xs es') : es'.length = es.length + xs.length := by
  induction h with
  | nil => rfl
  | cons _ _ ih =>
    rw [ih, List.length_append, List.length_singleton, List.length_cons, Nat.add_assoc, Nat.add_comm 1]

/-- R160: one turn of the decoder's loop; the output is that of the entries. -/
theorem decodeFrom_cons (hx : entryFor es x = some e) :
    decodeFrom es es.flatten (x :: xs) = decodeFrom (es ++ [e]) (es ++ [e]).flatten xs := by
  rw [decodeFrom, hx, List.flatten_concat]

/-- R163: a record that refers to no entry created before it. -/
theorem decodeFrom_cons_badReference (hx : entryFor es x = none) (out : List Byte) :
    decodeFrom es out (x :: xs) = .error (.badReference (es.length + 1) x.ref) := by
  rw [decodeFrom, hx]

/-- R160: decoding goes on behind the entries created. -/
theorem Creates.decodeFrom_append (h : Creates es xs es') (ys : List Record) :
    decodeFrom es es.flatten (xs ++ ys) = decodeFrom es' es'.flatten ys := by
  induction h with
  | nil => rfl
  | cons hx _ ih => rw [List.cons_append, decodeFrom_cons hx, ih]

/-- R160: the output of records that create entries is that of the entries. -/
theorem Creates.decodeFrom_eq (h : Creates es xs es') : decodeFrom es es.flatten xs = .ok es'.flatten := by
  rw [← List.append_nil xs, h.decodeFrom_append]
  rfl

/-- R163: decoding answers an output only where every record creates an entry. -/
theorem exists_creates_of_decodeFrom {out : List Byte} (h : decodeFrom es es.flatten xs = .ok out) :
    ∃ es', Creates es xs es' ∧ es'.flatten = out := by
  induction xs generalizing es with
  | nil => exact ⟨es, .nil es, Except.ok.inj h⟩
  | cons x xs ih =>
    cases hx : entryFor es x with
    | none =>
      rw [decodeFrom_cons_badReference hx] at h
      cases h
    | some e =>
      rw [decodeFrom_cons hx] at h
      obtain ⟨es', hxs, hout⟩ := ih h
      exact ⟨es', .cons hx hxs, hout⟩

/-- R163: a bad reference is found behind the entries there are. -/
theorem length_lt_of_badReference {out : List Byte} {j ref : Nat}
    (h : decodeFrom es out xs = .error (.badReference j ref)) : es.length < j := by
  induction xs generalizing es out with
  | nil => cases h
  | cons x xs ih =>
    rw [decodeFrom] at h
    split at h
    · have := ih h
      rw [List.length_append] at this
      omega
    · cases h
      exact Nat.lt_succ_self _

/-- R160: entries only add to the output. -/
theorem Creates.flatten_length_le (h : Creates es xs es') : es.flatten.length ≤ es'.flatten.length := by
  induction h with
  | nil => exact le_rfl
  | cons _ _ ih =>
    rw [List.flatten_concat, List.length_append] at ih
    omega

/-- R123, R160: every key of D is an entry created before, at the key's index. -/
def KeysAre (d : KeyMap) (es : List (List Byte)) : Prop :=
  ∀ (e : List Byte) (j : Nat), keyIndex d e = some j → j ≠ 0 ∧ es[j - 1]? = some e

/-- R123: the entry of a turn is added to both. -/
theorem KeysAre.insert {d : KeyMap} (h : KeysAre d es) (e : List Byte) :
    KeysAre ((e, es.length + 1) :: d) (es ++ [e]) := by
  intro e' j hj
  rw [keyIndex_cons] at hj
  split at hj
  · rename_i he
    cases hj
    exact ⟨Nat.succ_ne_zero _, by simp [he]⟩
  · obtain ⟨hne, hget⟩ := h e' j hj
    exact ⟨hne, List.getElem?_append_left (List.getElem?_eq_some_iff.1 hget).1 ▸ hget⟩

/-- R121: what a turn's entry extends by its last symbol is empty or a key. -/
theorem nextEntry_eq_append_singleton (d : KeyMap) {rest : List Byte} (h : rest ≠ []) :
    ∃ base sym, nextEntry d rest = base ++ [sym] ∧ (base = [] ∨ isKey d base = true) := by
  obtain ⟨l, hl, h1, hle, hkeys, -⟩ := encoderMatchIsGreedy d rest h
  obtain ⟨m, rfl⟩ := Nat.exists_eq_add_of_le' h1
  refine ⟨rest.take m, rest[m], by rw [nextEntry, hl, List.take_succ_eq_append_getElem hle], ?_⟩
  cases m with
  | zero => exact .inl rfl
  | succ m => exact .inr (hkeys (m + 1) (Nat.le_add_left 1 m) (Nat.lt_succ_self _))

/-- R122, R160: the record of a turn creates the turn's entry again. -/
theorem KeysAre.entryFor_recordFor {d : KeyMap} (h : KeysAre d es) {base : List Byte} (sym : Byte)
    (hbase : base = [] ∨ isKey d base = true) : entryFor es (recordFor d (base ++ [sym])) = some (base ++ [sym]) := by
  rw [recordFor_append_singleton, parentIndex, entryFor]
  by_cases h0 : base = []
  · simp [h0]
  · obtain ⟨j, hj⟩ := Option.isSome_iff_exists.1 (hbase.resolve_left h0)
    obtain ⟨hne, hget⟩ := h base j hj
    simp [h0, hj, hne, hget]

/-- R120, R160: the records of encode_inf create its entries. -/
theorem creates_encodeFrom {fuel : Nat} {d : KeyMap} {rest : List Byte} (h : KeysAre d es) :
    Creates es ((encodeFrom fuel d es.length rest).map Prod.fst)
      (es ++ (encodeFrom fuel d es.length rest).map Prod.snd) := by
  induction fuel generalizing d es rest with
  | zero => simpa [encodeFrom] using Creates.nil es
  | succ fuel ih =>
    by_cases hr : rest = []
    · simpa [hr, encodeFrom_nil] using Creates.nil es
    rw [encodeFrom_succ hr, List.map_cons, List.map_cons]
    obtain ⟨base, sym, hentry, hbase⟩ := nextEntry_eq_append_singleton d hr
    have hx := h.entryFor_recordFor sym hbase
    rw [← hentry] at hx
    have hxs := ih (rest := rest.drop (nextEntry d rest).length) (h.insert (nextEntry d rest))
    rw [List.length_append, List.append_assoc] at hxs
    exact .cons hx hxs

/-- R170: the records of encode_inf decode to its source. -/
theorem decode_encodeInf (x : List Byte) : decode (encodeInf x) = .ok x := by
  have h : Creates [] (encodeInf x) ((encodeEntries x).map Prod.snd) :=
    creates_encodeFrom (es := []) (d := []) nofun
  calc decode (encodeInf x) = .ok ((encodeEntries x).map Prod.snd).flatten := h.decodeFrom_eq
    _ = .ok x := by rw [encodeEntries_flatten]

/-- R129: what encode answers are encode_inf's records, the capacity sufficing. -/
theorem encode_eq_records {cap : Nat} {x : List Byte} {rs : List Record} (h : encode cap x = .records rs) :
    rs = encodeInf x ∧ rs.length ≤ cap := by
  unfold encode at h
  split at h
  · cases h
    exact ⟨rfl, by assumption⟩
  · cases h

/-- Settles O55. -/
theorem roundTripLaw : Obligations.RoundTripLaw := by
  intro cap x rs h
  obtain ⟨rfl, -⟩ := encode_eq_records h
  exact decode_encodeInf x

/-- R194: record `j` of a stream is cut from its bytes 3j to 3j + 2. -/
theorem getElem?_of_getElem?_cutRecords {w : List Byte} {j : Nat} (h : (cutRecords w)[j]? = some x) :
    ∃ b0 b1, w[3 * j]? = some b0 ∧ w[3 * j + 1]? = some b1 ∧ w[3 * j + 2]? = some x.sym ∧
      x.ref = (assembleRef b0 b1).toNat := by
  induction w using cutRecords.induct generalizing j with
  | case1 b0 b1 b2 rest ih =>
    rw [cutRecords] at h
    cases j with
    | zero =>
      cases h
      exact ⟨b0, b1, rfl, rfl, rfl, rfl⟩
    | succ j => exact ih h
  | case2 w hshort =>
    rw [cutRecords] at h
    · cases h
    · exact hshort

/-- R194: a record for each 3 bytes. -/
theorem cutRecords_length : ∀ w : List Byte, (cutRecords w).length = w.length / 3
  | [] | [_] | [_, _] => by simp [cutRecords]
  | b0 :: b1 :: b2 :: rest => by
    rw [cutRecords, List.length_cons, cutRecords_length rest]
    exact (Nat.add_div_right _ (by decide)).symm

/-- R196: records whose references have 16 bits are cut from their frame again. -/
theorem cutRecords_frame {rs : List Record} (h : ∀ x ∈ rs, x.ref ≤ 65535) : cutRecords (frame rs) = rs := by
  induction rs with
  | nil => rfl
  | cons x rs ih =>
    obtain ⟨hx, hrs⟩ := List.forall_mem_cons.1 h
    have hframe : frame (x :: rs) = Machine.frameBytes (BitVec.ofNat 16 x.ref) x.sym ++ frame rs := List.flatMap_cons
    have href : (BitVec.ofNat 16 x.ref).toNat = x.ref := Nat.mod_eq_of_lt (by omega)
    rw [hframe, Machine.frameBytes, List.cons_append, List.cons_append, List.cons_append, List.nil_append, cutRecords,
      assembleRef_refHigh_refLow, href, ih hrs]

/-- R196: deframe undoes frame. -/
theorem deframe_frame {rs : List Record} (h : ∀ x ∈ rs, x.ref ≤ 65535) : deframe (frame rs) = .ok rs := by
  rw [deframe_of_length_mod (by rw [frame_length]; omega), cutRecords_frame h]

end Sys2Proof.Codec
end

section
/-! PROOFS. The DECODE steps against decode: the points a run passes between two records, and the step from each of them. -/

namespace Sys2Proof.Machine

open Sys2Proof.Codec

/-- A running DECODE of the stream `w`, before a record (R167), whose records so far have created the entries `es`: OUT holds
them one after the other, and each that a reference of 16 bits can name is a string of the dictionary. -/
structure State.Decoded (s : State) (w : List Byte) (es : List (List Byte)) : Prop where
  inv : s.Inv
  clean : s.tainted = false
  phase : s.phase = .dRec
  capacity : s.cfg.dictCap = 65535
  length : s.n.toNat = w.length
  input : s.inHolds w
  count : s.r.toNat = es.length
  position : s.o.toNat = es.flatten.length
  output : s.outHolds es.flatten
  strings : ∀ ref : Index, ref ≠ 0 → str s ref.toNat = es[ref.toNat - 1]?

variable {s t : State} {w e : List Byte} {es es' : List (List Byte)} {x : Record} {xs : List Record}

theorem State.Decoded.tick (h : s.Decoded w es) : s.tick.Decoded w es :=
  { h with strings := fun ref hne => (str_congr (s := s) (t := s.tick) (fun _ => rfl) _).trans (h.strings ref hne) }

/-- R166, R217: D_BEGIN on whole records passes to D_REC before the first of them. -/
theorem decoded_enterRecords (hs : s.Inv) (hcap : s.cfg.dictCap = 65535) (hlen : s.inLen.toNat = w.length)
    (hin : s.inHolds w) (hmod : w.length % 3 = 0) : (s.start .dBegin).tick.enterRecords.Decoded w [] where
  inv := (EngineUpdate.enterRecords rfl (hlen ▸ hmod)).inv (hs.start (.inr rfl)).tick
  clean := rfl
  phase := rfl
  capacity := hcap
  length := hlen
  input := hin
  count := rfl
  position := rfl
  output := nofun
  strings ref _ := by
    cases hstr : str (s.start .dBegin).tick.enterRecords ref.toNat with
    | none => rfl
    | some y =>
      obtain ⟨x, hx⟩ := exists_entry_of_str hstr
      cases hx.symm.trans (entry_start s .dBegin ref.toNat)

/-- R164: K counts the records up to DICT_CAP. -/
theorem State.Decoded.entryCount (h : s.Decoded w es) : s.k.toNat = min es.length 65535 := by
  obtain ⟨-, -, hk⟩ := h.inv.decodeOk h.phase
  rw [hk, h.count, h.capacity]

/-- R40, R41: no error is recorded while a command runs. -/
theorem State.Inv.noError (hs : s.Inv) (hp : s.phase ≠ .idle) : s.errPos = 0 ∧ s.errInfo = 0 := by
  obtain ⟨-, hexcl, herr, -⟩ := hs.flagsOk
  exact (herr (by simpa using fun hd => hexcl ⟨hs.busy hp, hd⟩)).2

/-- R160, R162: the entry a record of the stream creates is the dictionary's string of its reference and its symbol. -/
theorem State.Decoded.entryFor_eq (h : s.Decoded w es) {ref : Index} (href : x.ref = ref.toNat) :
    entryFor es x = (baseString s ref).map (· ++ [x.sym]) := by
  rw [entryFor, href]
  by_cases h0 : ref = 0
  · subst h0
    rfl
  · have hne : ref.toNat ≠ 0 := fun hz => h0 (BitVec.eq_of_toNat_eq hz)
    rw [if_neg hne, baseString_of_ne_zero h0, h.strings ref h0]

/-- R163: a record refers to no entry created before it exactly when its reference is above R. -/
theorem State.Decoded.entryFor_eq_none_iff (h : s.Decoded w es) : entryFor es x = none ↔ s.r.toNat < x.ref := by
  rw [entryFor, h.count]
  split
  · rename_i h0
    simp [h0]
  · rw [Option.map_eq_none_iff, List.getElem?_eq_none_iff]
    omega

/-- R24, R167: while the stream has a record behind those done, it is at 3·R, below N. -/
theorem State.Decoded.record_left (h : s.Decoded w es) (hx : (cutRecords w)[es.length]? = some x) :
    s.allRecordsDone = false := by
  obtain ⟨hlt, -⟩ := List.getElem?_eq_some_iff.1 hx
  rw [cutRecords_length] at hlt
  refine Bool.eq_false_iff.2 (mt allRecordsDone_iff.1 ?_)
  rw [State.recordPos, h.count, h.length]
  omega

/-- R93, R167, R195: D_REC runs the record behind those done. -/
theorem State.Decoded.runs (h : s.Decoded w es) (hx : (cutRecords w)[es.length]? = some x) :
    ∃ ref : Index, x.ref = ref.toNat ∧ engineDRec s = runRecord ref x.sym s := by
  obtain ⟨b0, b1, h0, h1, h2, href⟩ := getElem?_of_getElem?_cutRecords hx
  have hlt : 3 * es.length + 2 < w.length := (List.getElem?_eq_some_iff.1 h2).1
  have hpos : s.recordPos = 3 * es.length := by rw [State.recordPos, h.count]
  have hread : ∀ a, a < w.length → readByte s.inBuf a = w[a]? := h.input
  obtain ⟨-, -, -, -, hn, -⟩ := h.inv.flagsOk
  rw [h.length] at hn
  refine ⟨assembleRef b0 b1, href, ?_⟩
  rw [engineDRec_of_record (by rw [hpos, h.length]; omega) ?_, exec_decodeRecord]
  rw [hpos]
  exact deser_of_written (by omega) ((hread _ (by omega)).trans h0) ((hread _ (by omega)).trans h1)
    ((hread _ hlt).trans h2)

/-- R163: D_REC on a record that creates no entry. -/
theorem State.Decoded.badReference (h : s.Decoded w es) (hx : (cutRecords w)[es.length]? = some x)
    (hbad : entryFor es x = none) :
    ∃ ref : Index, x.ref = ref.toNat ∧
      engineDRec s = .next (s.raise .corruptBadReference (errRecordPos s) (ref.zeroExtend 32)) := by
  obtain ⟨ref, href, hrun⟩ := h.runs hx
  exact ⟨ref, href, hrun.trans (runRecord_of_badReference (href ▸ h.entryFor_eq_none_iff.1 hbad))⟩

/-- R161, R162: of a record that creates the entry `e`, the reference is created, and `e` extends its string by the symbol. -/
theorem State.Decoded.runs_creating (h : s.Decoded w es) (hx : (cutRecords w)[es.length]? = some x)
    (he : entryFor es x = some e) :
    ∃ (ref : Index) (base : List Byte), engineDRec s = runRecord ref x.sym s ∧ ref.toNat ≤ s.r.toNat ∧
      baseString s ref = some base ∧ e = base ++ [x.sym] := by
  obtain ⟨ref, href, hrun⟩ := h.runs hx
  have hle : ¬ s.r.toNat < x.ref := mt h.entryFor_eq_none_iff.2 (by simp [he])
  rw [h.entryFor_eq href] at he
  obtain ⟨base, hbase, rfl⟩ := Option.map_eq_some_iff.1 he
  exact ⟨ref, base, hrun, by omega, hbase, rfl⟩

/-- R165: D_REC on a record whose entry passes OUT_MAX. -/
theorem State.Decoded.overflow (h : s.Decoded w es) (hx : (cutRecords w)[es.length]? = some x)
    (he : entryFor es x = some e) (ho : s.cfg.outMax < (es ++ [e]).flatten.length) :
    engineDRec s = .next (s.raise .outputOverflow (errRecordPos s) 0) := by
  obtain ⟨ref, base, hrun, hle, hbase, rfl⟩ := h.runs_creating hx he
  rw [List.flatten_concat, List.length_append, ← h.position] at ho
  exact hrun.trans (runRecord_of_overflow hle hbase ho)

/-- R28, R164: the strings of the dictionary after a record that creates an entry. An entry beyond DICT_CAP is not stored,
and no reference of 16 bits can name it. -/
theorem State.Decoded.strings_of_effect (h : s.Decoded w es) {y : DictEntry} {base : List Byte}
    (heffect : RecordEffect s t e y) (hcfg : t.cfg = s.cfg) (hbase : baseString s y.parent = some base)
    (he : e = base ++ [y.sym]) (ref : Index) (hne : ref ≠ 0) : str t ref.toNat = (es ++ [e])[ref.toNat - 1]? := by
  have hlt := ref.isLt
  have hpos : ref.toNat ≠ 0 := fun hz => hne (BitVec.eq_of_toNat_eq hz)
  have hk := h.entryCount
  have hcap := h.capacity
  have hold := h.strings ref hne
  by_cases hroom : s.k.toNat < s.cfg.dictCap
  · rw [heffect.str_eq h.inv.dictOk hcfg hroom hbase, ← he, hold]
    by_cases hnew : ref.toNat = s.k.toNat + 1
    · have hidx : ref.toNat - 1 = es.length := by omega
      rw [if_pos hnew, hidx, List.getElem?_concat_length]
    · rw [if_neg hnew]
      by_cases hin : ref.toNat - 1 < es.length
      · rw [List.getElem?_append_left hin]
      · rw [List.getElem?_eq_none (by omega), List.getElem?_eq_none (by simp; omega)]
  · rw [str_congr (fun j => (heffect.entry_eq j).trans (if_neg fun hn => hroom hn.1)), hold,
      List.getElem?_append_left (by omega)]

/-- R164, R165, R167: D_REC on a record whose entry fits in OUT. -/
theorem State.Decoded.append (h : s.Decoded w es) (hx : (cutRecords w)[es.length]? = some x)
    (he : entryFor es x = some e) (ho : (es ++ [e]).flatten.length ≤ s.cfg.outMax) :
    ∃ t, engineDRec s = .next t ∧ t.Decoded w (es ++ [e]) := by
  obtain ⟨ref, base, hrun, hle, hbase, hentry⟩ := h.runs_creating hx he
  have hleft := h.record_left hx
  have hroom : s.o.toNat + e.length ≤ s.cfg.outMax := by
    rwa [List.flatten_concat, List.length_append, ← h.position] at ho
  subst hentry
  have heffect := recordEffect_appended h.inv x.sym h.phase hleft hle hroom
  exact ⟨_, hrun.trans (runRecord_of_room hle hbase hroom), { h with
    inv := (EngineUpdate.append ref x.sym base h.phase hleft hle hroom).inv h.inv
    count := by rw [heffect.r, h.count, List.length_append]; rfl
    position := by rw [heffect.o, h.position, ← List.length_append, List.flatten_concat]
    output := List.flatten_concat (L := es) ▸ outHolds_append heffect h.output h.position
    strings := h.strings_of_effect heffect rfl hbase rfl }⟩

/-- R168: D_REC behind the last record. -/
theorem State.Decoded.complete (h : s.Decoded w es) (hall : es.length = (cutRecords w).length) :
    engineDRec s = .next s.complete := by
  obtain ⟨hmod, -⟩ := h.inv.decodeOk h.phase
  rw [h.length] at hmod
  rw [cutRecords_length] at hall
  refine engineDRec_of_end ?_
  rw [State.recordPos, h.count, h.length]
  omega

/-- R140: a D_REC step of the running engine. -/
theorem State.Decoded.busyStep (h : s.Decoded w es) (hstep : engineDRec s.tick = .next t) : BusyRun 1 s t :=
  .step (h.inv.busy (by simp [h.phase])) ((engineStep_of_dRec h.phase).trans hstep) (.refl t)

/-- R171: a step for each record that creates an entry, while the output fits in OUT. -/
theorem State.Decoded.run (h : s.Decoded w es) (hxs : Creates es xs es')
    (hprefix : xs <+: (cutRecords w).drop es.length) (ho : es'.flatten.length ≤ s.cfg.outMax) :
    ∃ t, BusyRun xs.length s t ∧ t.Decoded w es' := by
  induction hxs generalizing s with
  | nil => exact ⟨s, .refl s, h⟩
  | @cons es es' x e xs hx hxs ih =>
    obtain ⟨ys, hys⟩ := hprefix
    have hget : (cutRecords w)[es.length]? = some x := by
      rw [← Nat.add_zero es.length, ← List.getElem?_drop, ← hys]
      rfl
    have hrest : xs <+: (cutRecords w).drop (es ++ [e]).length := by
      rw [List.length_append, ← List.drop_drop, ← hys]
      exact ⟨ys, rfl⟩
    obtain ⟨t, hstep, ht⟩ := h.tick.append hget hx (hxs.flatten_length_le.trans ho)
    obtain ⟨u, hrun, hu⟩ := ih ht hrest (by rwa [(h.busyStep hstep).cfg_eq])
    rw [List.length_cons, Nat.add_comm]
    exact ⟨u, (h.busyStep hstep).trans hrun, hu⟩

end Sys2Proof.Machine
end

section
/-! PROOFS. Where decoding stops: the entries created before record `m + 1` of a sequence, and that record. -/

namespace Sys2Proof.Codec

variable {rs : List Record} {m : Nat} {out out' : List Byte}

/-- R193: a stream is cut into records only when its length is a multiple of 3. -/
theorem deframe_ok {w : List Byte} (h : deframe w = .ok rs) : w.length % 3 = 0 ∧ rs = cutRecords w := by
  by_cases hmod : w.length % 3 = 0
  · rw [deframe_of_length_mod hmod] at h
    exact ⟨hmod, (Except.ok.inj h).symm⟩
  · rw [deframe_of_length_mod_ne hmod] at h
    cases h

/-- R193: only such a length makes a stream truncated. -/
theorem length_mod_ne_of_truncated {w : List Byte} (h : deframe w = .error .truncated) : w.length % 3 ≠ 0 :=
  (deframeRejectsBadLength.2 w).1 h

/-- R160: the first `m` records create one entry each, where decode answers an output for them. -/
theorem exists_creates_take (h : decode (rs.take m) = .ok out) (hm : m ≤ rs.length) :
    ∃ es, Creates [] (rs.take m) es ∧ es.flatten = out ∧ es.length = m := by
  obtain ⟨es, hes, hflat⟩ := exists_creates_of_decodeFrom (es := []) h
  refine ⟨es, hes, hflat, ?_⟩
  rw [hes.length_eq, List.length_nil, List.length_take]
  omega

/-- R160: decode goes on with record `m + 1` behind the entries of the `m` before it. -/
theorem Creates.decode_eq {es : List (List Byte)} (h : Creates [] (rs.take m) es) (hm : m < rs.length) :
    decode rs = decodeFrom es es.flatten (rs[m] :: rs.drop (m + 1)) := by
  rw [← h.decodeFrom_append, ← List.drop_eq_getElem_cons hm, List.take_append_drop]
  rfl

/-- R163: where decode ends in a bad reference at record `j`, the records before it create entries and record `j` none. -/
theorem exists_creates_of_badReference {j ref : Nat} (h : decode rs = .error (.badReference j ref))
    (hout : decode (rs.take (j - 1)) = .ok out) :
    ∃ es x, Creates [] (rs.take (j - 1)) es ∧ es.flatten = out ∧ es.length = j - 1 ∧ 1 ≤ j ∧
      rs[es.length]? = some x ∧ entryFor es x = none ∧ x.ref = ref := by
  have hm : j - 1 < rs.length := Nat.lt_of_not_le fun hall => by
    rw [List.take_of_length_le hall, h] at hout
    cases hout
  have hj : 1 ≤ j := Nat.succ_le_of_lt (length_lt_of_badReference (es := []) h)
  obtain ⟨es, hes, hflat, hlen⟩ := exists_creates_take hout hm.le
  rw [hes.decode_eq hm] at h
  have hnone : entryFor es rs[j - 1] = none := by
    by_contra hsome
    obtain ⟨e, he⟩ := Option.ne_none_iff_exists'.1 hsome
    rw [decodeFrom_cons he] at h
    have hlater := length_lt_of_badReference h
    rw [List.length_append, List.length_singleton] at hlater
    omega
  rw [decodeFrom_cons_badReference hnone] at h
  refine ⟨es, rs[j - 1], hes, hflat, hlen, hj, ?_, hnone, ?_⟩
  · rw [hlen, List.getElem?_eq_getElem hm]
  · injection h with h
    injection h

/-- R165: where the output of one more record is longer, that record creates an entry, the last part of its output. -/
theorem exists_creates_of_longer (h : decode (rs.take m) = .ok out) (h' : decode (rs.take (m + 1)) = .ok out')
    (hlonger : out.length < out'.length) :
    ∃ es x e, Creates [] (rs.take m) es ∧ es.flatten = out ∧ es.length = m ∧ rs[es.length]? = some x ∧
      entryFor es x = some e ∧ (es ++ [e]).flatten = out' := by
  have hm : m < rs.length := Nat.lt_of_not_le fun hall => by
    rw [List.take_of_length_le hall] at h
    rw [List.take_of_length_le (Nat.le_succ_of_le hall), h] at h'
    cases h'
    exact lt_irrefl _ hlonger
  obtain ⟨es, hes, hflat, hlen⟩ := exists_creates_take h hm.le
  rw [List.take_succ_eq_append_getElem hm] at h'
  obtain ⟨es', hes', hflat'⟩ := exists_creates_of_decodeFrom ((hes.decodeFrom_append [rs[m]]).symm.trans h')
  cases hes' with
  | cons hx hnil =>
    cases hnil
    exact ⟨es, rs[m], _, hes, hflat, hlen, by rw [hlen, List.getElem?_eq_getElem hm], hx, hflat'⟩

end Sys2Proof.Codec
end

section
/-! PROOFS. Whole runs of DECODE: the records that create entries one after the other, then completion or an error; and the
round trip of ENCODE and DECODE. -/

namespace Sys2Proof.Machine

open Sys2Proof.Codec

variable {s t : State} {w : List Byte} {es : List (List Byte)} {xs : List Record}

/-- R166, R171: from DECODE's start over whole records, D_BEGIN and a step for each of the first records, which create the
entries `es`. -/
theorem exists_decoded (hs : s.Inv) (hcap : s.cfg.dictCap = 65535) (hlen : s.inLen.toNat = w.length) (hin : s.inHolds w)
    (hmod : w.length % 3 = 0) (hes : Creates [] xs es) (hxs : xs <+: cutRecords w)
    (ho : es.flatten.length ≤ s.cfg.outMax) :
    ∃ t, BusyRun (es.length + 1) (s.start .dBegin) t ∧ t.Decoded w es ∧ t.cfg = s.cfg := by
  have hbegin : engineStep (s.start .dBegin) = .next (s.start .dBegin).tick.enterRecords :=
    (engineStep_of_dBegin rfl).trans (engineDBegin_of_mod (s := (s.start .dBegin).tick) (hlen ▸ hmod))
  obtain ⟨t, hrun, ht⟩ := (decoded_enterRecords hs hcap hlen hin hmod).run hes hxs ho
  have hcount : es.length = xs.length := hes.length_eq.trans (Nat.zero_add _)
  exact ⟨t, hcount ▸ .step rfl hbegin hrun, ht, hrun.cfg_eq⟩

/-- R234, R235: 3·R as a register value; it does not wrap. -/
theorem State.Decoded.errRecordPos_toNat (h : s.Decoded w es) : (errRecordPos s).toNat = 3 * es.length := by
  obtain ⟨-, hle, -⟩ := h.inv.decodeOk h.phase
  rw [errRecordPos, BitVec.toNat_ofNat, Nat.mod_eq_of_lt (hle.trans_lt s.n.isLt), State.recordPos, h.count]

/-- R171: the run goes on for one more D_REC step. -/
theorem State.Decoded.engineRun_eq {s' : State} {m : Nat} (h : t.Decoded w es) (hrun : BusyRun (m + 1) s t)
    (hstep : engineDRec t.tick = .next s') : engineRun (m + 2) s = .next s' :=
  (hrun.trans (h.busyStep hstep)).engineRun_eq

/-- R233: a DECODE of a stream that is no sequence of whole records. -/
theorem decodeRun_truncated (hlen : s.inLen.toNat = w.length) (hmod : w.length % 3 ≠ 0) :
    engineRun 1 (s.start .dBegin) = .next ((s.start .dBegin).tick.raise .corruptTruncated s.inLen 0) :=
  engineRun_succ ((engineStep_of_dBegin rfl).trans
    (engineDBegin_of_mod_ne (s := (s.start .dBegin).tick) (hlen ▸ hmod))) 0

/-- Settles O58: after the records that create entries, the step of the point the run is at. -/
theorem decodeStepsComputeDecode : Obligations.DecodeStepsComputeDecode := by
  intro s w hs hcap _ hlen hin
  refine ⟨fun htrunc => ⟨_, decodeRun_truncated hlen (length_mod_ne_of_truncated htrunc), rfl,
    statusWord_raise rfl .corruptTruncated _ _, hlen, rfl, rfl, rfl, rfl⟩, fun rs hrs => ?_⟩
  obtain ⟨hmod, rfl⟩ := deframe_ok hrs
  refine ⟨fun out hout hfits => ?_, fun j ref out hbad hout hfits => ?_, fun m out out' hout hfits hout' hlong => ?_⟩
  · obtain ⟨es, hes, rfl⟩ := exists_creates_of_decodeFrom (es := []) hout
    have hall : es.length = (cutRecords w).length := hes.length_eq.trans (Nat.zero_add _)
    obtain ⟨t, hrun, ht, -⟩ := exists_decoded hs hcap hlen hin hmod hes List.prefix_rfl hfits
    obtain ⟨hpos, hinfo⟩ := ht.inv.noError (by simp [ht.phase])
    rw [← hall]
    exact ⟨_, ht.engineRun_eq hrun (ht.tick.complete hall), rfl, statusWord_complete ht.tick.clean, ht.count, ht.entryCount,
      ht.position, ht.output, hpos, hinfo⟩
  · obtain ⟨es, x, hes, rfl, hcount, hj, hx, hnone, rfl⟩ := exists_creates_of_badReference hbad hout
    obtain ⟨t, hrun, ht, -⟩ := exists_decoded hs hcap hlen hin hmod hes (List.take_prefix _ _) hfits
    obtain ⟨i, href, hstep⟩ := ht.tick.badReference hx hnone
    have hsteps : j + 1 = es.length + 2 := by omega
    rw [hsteps, ← hcount]
    exact ⟨_, ht.engineRun_eq hrun hstep, rfl, statusWord_raise ht.tick.clean .corruptBadReference _ _,
      ht.tick.errRecordPos_toNat, (BitVec.toNat_setWidth_of_le (by decide)).trans href.symm, ht.count,
      ht.entryCount, ht.position, ht.output⟩
  · obtain ⟨es, x, e, hes, rfl, rfl, hx, he, rfl⟩ :=
      exists_creates_of_longer hout hout' (hfits.trans_lt hlong)
    obtain ⟨t, hrun, ht, hcfg⟩ := exists_decoded hs hcap hlen hin hmod hes (List.take_prefix _ _) hfits
    exact ⟨_, ht.engineRun_eq hrun (ht.tick.overflow hx he (hcfg ▸ hlong)), rfl,
      statusWord_raise ht.tick.clean .outputOverflow _ _, ht.tick.errRecordPos_toNat, rfl, ht.count, ht.position, ht.output⟩

/-- R98, R196: the records encode answers within a capacity of 65535 are cut from their frame again. -/
theorem deframe_frame_of_encode {x : List Byte} {rs : List Record} (h : encode 65535 x = .records rs) :
    deframe (frame rs) = .ok rs := by
  obtain ⟨rfl, hcap⟩ := encode_eq_records h
  refine deframe_frame fun y hy => ?_
  obtain ⟨j, hj, rfl⟩ := List.getElem_of_mem hy
  have := encodeInf_ref_le (List.getElem?_eq_getElem hj)
  omega

/-- Settles O59: the ENCODE run frames encode's records, and a DECODE of that stream decodes them to the source. -/
theorem hardwareRoundTrip : Obligations.HardwareRoundTrip := by
  intro s x rs hs hcap hidle hlen hin henc
  obtain ⟨hencode, -⟩ := encodeStepsComputeEncode s x hs hidle hlen hin
  obtain ⟨⟨t, hrun, -, hstatus, -, -, ho, hout, -⟩, -⟩ := hencode rs (hcap ▸ henc)
  refine ⟨⟨_, t, hrun, hstatus, hout, ho.trans (frame_length rs).symm⟩, fun u hu hcfg huidle hulen huin => ?_⟩
  obtain ⟨-, hdecode⟩ := decodeStepsComputeDecode u (frame rs) hu (hcfg ▸ hcap) huidle hulen huin
  obtain ⟨hcompletes, -, -⟩ := hdecode rs (deframe_frame_of_encode henc)
  have hfits : x.length ≤ u.cfg.outMax := by
    obtain ⟨-, -, -, -, hmax, -⟩ := hs.cfgValid
    obtain ⟨-, -, -, hle, -⟩ := hs.flagsOk
    rw [hcfg]
    omega
  obtain ⟨v, hrun', -, hstatus', -, -, ho', hout', -⟩ := hcompletes x (roundTripLaw 65535 x rs henc) hfits
  exact ⟨_, v, hrun', hstatus', ho', hout'⟩

end Sys2Proof.Machine
end

section
/-! PROOFS. The framer and the deserializer: the bytes of FRAME in the store, the equations of frame, and frame as the inverse of
deframe. -/

namespace Sys2Proof.Codec

open Sys2Proof.Machine

/-- Settles O50: a byte read after FRAME is one of the three it writes, or the one before. -/
theorem frameWritesThreeBytes : Obligations.FrameWritesThreeBytes := by
  intro m o ref sym
  have hread (a : Nat) : readByte (writeBytes m o (frameBytes ref sym)) a =
      if o ≤ a ∧ a < o + 3 then (frameBytes ref sym)[a - o]? else readByte m a := readByte_writeBytes m o a _
  have hwritten (i : Nat) (hi : i < 3) :
      readByte (writeBytes m o (frameBytes ref sym)) (o + i) = (frameBytes ref sym)[i]? := by
    rw [hread, if_pos (by omega), Nat.add_sub_cancel_left]
  exact ⟨hwritten 0 (by decide), hwritten 1 (by decide), hwritten 2 (by decide),
    fun a ha => by rw [hread, if_neg (by omega)]⟩

/-- Settles O49. -/
theorem frameEquations : Obligations.FrameEquations :=
  ⟨rfl, fun rs ref sym => ⟨frame_append_record rs ref sym, frame_length rs⟩⟩

/-- R7, R194: a reference cut from a stream has 16 bits. -/
theorem ref_le_of_mem_cutRecords {w : List Byte} {x : Record} (h : x ∈ cutRecords w) : x.ref ≤ 65535 := by
  obtain ⟨j, hj⟩ := List.getElem?_of_mem h
  obtain ⟨b0, b1, -, -, -, href⟩ := getElem?_of_getElem?_cutRecords hj
  rw [href]
  exact Nat.le_of_lt_succ (assembleRef b0 b1).isLt

/-- R191, R194: the record cut from three bytes is framed as those bytes. -/
theorem frame_cons_assembleRef (b0 b1 b2 : Byte) (rs : List Record) :
    frame (⟨(assembleRef b0 b1).toNat, b2⟩ :: rs) = b0 :: b1 :: b2 :: frame rs := by
  rw [frame, List.flatMap_cons, BitVec.ofNat_toNat, BitVec.setWidth_eq, frameBytes, refHigh_assembleRef, refLow_assembleRef]
  rfl

/-- R196: a whole number of 3-byte groups is the frame of the records cut from it. -/
theorem frame_cutRecords {w : List Byte} (h : w.length % 3 = 0) : frame (cutRecords w) = w := by
  induction w using cutRecords.induct with
  | case1 b0 b1 b2 rest ih =>
    have hrest : rest.length % 3 = 0 := (Nat.add_mod_right rest.length 3).symm.trans h
    rw [cutRecords, frame_cons_assembleRef, ih hrest]
  | case2 w hshort =>
    match w with
    | [] => rfl
    | [_] | [_, _] => cases h
    | b0 :: b1 :: b2 :: rest => exact (hshort b0 b1 b2 rest rfl).elim

/-- Settles O51, each direction by the records cut from the stream. -/
theorem frameAndDeframeAreInverse : Obligations.FrameAndDeframeAreInverse :=
  ⟨fun _ => deframe_frame, fun w hmod =>
    ⟨cutRecords w, deframe_of_length_mod hmod, fun _ => ref_le_of_mem_cutRecords, cutRecords_length w, frame_cutRecords hmod⟩⟩

end Sys2Proof.Codec
end

section
/-! PROOFS. The command words: the execution of each, what a CTRL write of it does, and that no host step stops a running
command. -/

namespace Sys2Proof.Machine

variable {s t : State}

/-- R100: a word other than the three legal ones is reserved. -/
theorem decodeCtrl_of_reserved {w : Word} (h0 : w ≠ 0x00000000#32) (h1 : w ≠ 0x00000001#32) (h2 : w ≠ 0x00000002#32) :
    decodeCtrl w = .error (.reservedCommand w) := by
  rw [decodeCtrl, if_neg h0, if_neg h1, if_neg h2]

/-- R210, R214: a CTRL write of a word that does not decode is refused. -/
theorem hostAccess_ctrl_of_error {w : Word} {e : DecodeError} (h : decodeCtrl w = .error e) (s : State) :
    hostAccess (.wr32 (s.cfg.regBase + regOffset .ctrl) w) s = .refused (.reservedCommand w) := by
  rw [hostAccess_wr, writeReg, writeCtrl, h]

/-- R210: a CTRL write of a word that decodes is the execution of its command. -/
theorem hostAccess_ctrl_of_ok {w : Word} {i : Instr} (h : decodeCtrl w = .ok i) (s : State) :
    hostAccess (.wr32 (s.cfg.regBase + regOffset .ctrl) w) s = exec i s := by
  rw [hostAccess_wr, writeReg, writeCtrl, h]

/-- Settles O5: no such word decodes. -/
theorem reservedCommandWordsAreRefused : Obligations.ReservedCommandWordsAreRefused := fun s _ h0 h1 h2 =>
  hostAccess_ctrl_of_error (decodeCtrl_of_reserved h0 h1 h2) s

/-- Settles O6, by the decoder's first arm and NOP's meaning. -/
theorem nopChangesNothing : Obligations.NopChangesNothing := ⟨rfl, fun _ => rfl⟩

/-- R215: a command that starts a run is ignored while busy. -/
theorem startCommand_of_busy (h : s.busy = true) (ph : Phase) : startCommand ph s = .next s := if_pos h

/-- R217: when not busy it is START. -/
theorem startCommand_of_not_busy (h : s.busy = false) (ph : Phase) : startCommand ph s = .next (s.start ph) := by
  rw [startCommand, h]
  rfl

/-- Settles O7: both commands are START, each with its own phase. -/
theorem commandStartsARun : Obligations.CommandStartsARun := fun _ h =>
  ⟨startCommand_of_not_busy h .eBegin, startCommand_of_not_busy h .dBegin⟩

/-- R74, R215: a host update of a running command leaves it running, with its counters and its record of errors. -/
theorem HostUpdate.keeps_running (h : HostUpdate s t) (hb : s.busy = true) :
    t.busy = true ∧ t.phase = s.phase ∧ t.n = s.n ∧ t.i = s.i ∧ t.p = s.p ∧ t.c = s.c ∧ t.k = s.k ∧ t.r = s.r ∧
    t.o = s.o ∧ t.done = s.done ∧ t.err = s.err ∧ t.errPos = s.errPos ∧ t.errInfo = s.errInfo := by
  cases h with
  | start ph hph hidle => exact absurd (hb.symm.trans hidle) nofun
  | _ => exact ⟨hb, rfl, rfl, rfl, rfl, rfl, rfl, rfl, rfl, rfl, rfl, rfl, rfl⟩

/-- Settles O8: each legal word by its command, a step at the host's turn by the update it applies. -/
theorem commandsWhileBusyAreIgnored : Obligations.CommandsWhileBusyAreIgnored := by
  refine ⟨fun s w hb hw => ?_, fun s t hb hn h => ?_⟩
  · rcases hw with rfl | rfl | rfl
    · exact hostAccess_ctrl_of_ok (i := .nop) rfl s
    · exact (hostAccess_ctrl_of_ok (i := .encode) rfl s).trans (startCommand_of_busy hb .eBegin)
    · exact (hostAccess_ctrl_of_ok (i := .decode) rfl s).trans (startCommand_of_busy hb .dBegin)
  · have hupdate := hostUpdate_of_hostStep ((step_of_hostTurn hn).symm.trans h)
    exact hupdate.keeps_running hb

/-- R211 to R213, R215: a command leaves the state as it is, or is START; NOP never is. -/
theorem exec_command_cases {i : Instr} (hi : i = .nop ∨ i = .encode ∨ i = .decode) (h : exec i s = .next t) :
    t = s ∨ (i ≠ .nop ∧ ∃ ph, t = s.start ph) := by
  rcases hi with rfl | rfl | rfl
  · exact .inl (Host.Outcome.next.inj h).symm
  · exact (startCommand_cases h).imp And.right fun hst => ⟨nofun, _, hst.2⟩
  · exact (startCommand_cases h).imp And.right fun hst => ⟨nofun, _, hst.2⟩

/-- Settles O9: START writes none of the memories, parameters and fields of the host named. -/
theorem commandFrame : Obligations.CommandFrame := by
  intro s t i hi h
  rcases exec_command_cases hi h with rfl | ⟨hne, ph, rfl⟩
  · exact ⟨fun _ => rfl, fun _ => rfl, fun _ => rfl, rfl, rfl, rfl, rfl, rfl, rfl,
      fun _ => ⟨rfl, rfl, rfl, rfl, rfl, rfl, rfl, rfl, rfl, rfl, rfl, rfl, rfl, rfl, rfl⟩⟩
  · exact ⟨fun _ => rfl, fun _ => rfl, fun _ => rfl, rfl, rfl, rfl, rfl, rfl, rfl, fun hnop => absurd hnop hne⟩

/-- Settles O15: the host's turn takes the operation and renews the draws, and the write executes the command. -/
theorem stepRunsTheDecodedCommand : Obligations.StepRunsTheDecodedCommand := by
  intro s w i rest hn hhost hdec
  rw [step_of_hostTurn hn, hostStep_of_write s.popTurn hhost rfl]
  exact hostAccess_ctrl_of_ok hdec { s.popTurn with host := rest, epoch := s.epoch + 1 }

end Sys2Proof.Machine
end

section
/-! PROOFS. What the host reads and writes: the registers, IN_LEN, and the bytes of IN and OUT. -/

namespace Sys2Proof.Machine

variable {s : State} {a : Nat}

/-- R77, R80, R277: the results are specified once a command has ended, the host has seen it, and no forbidden IN write came. -/
theorem unspecified_eq_false (hb : s.busy = false) (hu : s.doneUnseen = false) (ht : s.tainted = false) :
    s.unspecified = false := by
  rw [State.unspecified, hb, hu, ht]
  rfl

/-- R218: while the results are specified every register reads as its contents. -/
theorem readReg_of_specified (h : s.unspecified = false) (reg : HostReg) : readReg s reg = regContents s reg := by
  rw [readReg, h, Bool.and_false]
  rfl

/-- R76: a read of another register than STATUS adds nothing to what the host has seen. -/
theorem respondReg_of_ne_status {reg : HostReg} (h : reg ≠ .status) (s : State) :
    s.respondReg reg = s.respond (.word (readReg s reg)) := by
  have hseen := respondReg_doneUnseen_eq (s := s) (.inl h)
  rw [State.respondReg_doneUnseen] at hseen
  rw [State.respondReg, hseen]
  rfl

/-- R218: a register read, of STATUS excepted, changes only what the host holds. -/
theorem hostAccess_rd_of_ne_status {reg : HostReg} (h : reg ≠ .status) (s : State) :
    hostAccess (.rd32 (s.cfg.regBase + regOffset reg)) s = .next (s.respond (.word (readReg s reg))) := by
  rw [hostAccess_rd, respondReg_of_ne_status h]

/-- R218: while the results are specified such a read answers the register's contents. -/
theorem hostAccess_rd_of_specified (hs : s.unspecified = false) {reg : HostReg} (h : reg ≠ .status) :
    hostAccess (.rd32 (s.cfg.regBase + regOffset reg)) s = .next (s.respond (.word (regContents s reg))) := by
  rw [hostAccess_rd_of_ne_status h, readReg_of_specified hs]

/-- Settles O30: CTRL, STATUS and IN_LEN are no results, and the results are specified. -/
theorem registerReadValues : Obligations.RegisterReadValues := by
  refine fun s => ⟨hostAccess_rd_of_ne_status (reg := .ctrl) nofun s, hostAccess_rd .status s,
    hostAccess_rd_of_ne_status (reg := .inLen) nofun s, fun hb hu ht => ?_⟩
  have hs := unspecified_eq_false hb hu ht
  exact ⟨hostAccess_rd_of_specified hs (reg := .outLen) nofun, hostAccess_rd_of_specified hs (reg := .recCount) nofun,
    hostAccess_rd_of_specified hs (reg := .dictCount) nofun, hostAccess_rd_of_specified hs (reg := .errPos) nofun,
    hostAccess_rd_of_specified hs (reg := .errInfo) nofun⟩

/-- R216: a value above IN_MAX is refused, busy or not (log 11). -/
theorem writeInLen_of_gt {v : Word} (h : s.cfg.inMax < v.toNat) : writeInLen v s = .refused (.inLenTooLarge v) := if_pos h

/-- R216: a value that fits is ignored while busy. -/
theorem writeInLen_of_busy {v : Word} (h : v.toNat ≤ s.cfg.inMax) (hb : s.busy = true) : writeInLen v s = .next s := by
  rw [writeInLen, if_neg (Nat.not_lt.2 h), if_pos hb]

/-- R216: a value that fits is stored when not busy. -/
theorem writeInLen_of_not_busy {v : Word} (h : v.toNat ≤ s.cfg.inMax) (hb : s.busy = false) :
    writeInLen v s = .next (s.storeInLen v) := by
  rw [writeInLen, if_neg (Nat.not_lt.2 h), hb]
  rfl

/-- Settles O33, by the three cases of an IN_LEN write. -/
theorem inLenWrite : Obligations.InLenWrite := by
  intro s v
  rw [hostAccess_wr, writeReg]
  exact ⟨writeInLen_of_not_busy, writeInLen_of_busy, writeInLen_of_gt⟩

/-- R219: a byte write of IN is the store. -/
theorem hostAccess_wr8_in (hv : s.cfg.valid) (ha : a < s.cfg.inMax) (v : Byte) :
    hostAccess (.wr8 (s.cfg.inBase + a) v) s = .next (s.storeIn a v) := by
  simp only [hostAccess, locate_in s.cfg hv ha]

/-- R219: a byte read of IN. -/
theorem hostAccess_rd8_in (hv : s.cfg.valid) (ha : a < s.cfg.inMax) :
    hostAccess (.rd8 (s.cfg.inBase + a)) s = .next (s.respond (.byte (hostReadIn s a))) := by
  simp only [hostAccess, locate_in s.cfg hv ha]

/-- R220: a byte read of OUT. -/
theorem hostAccess_rd8_out (hv : s.cfg.valid) (ha : a < s.cfg.outMax) :
    hostAccess (.rd8 (s.cfg.outBase + a)) s = .next (s.respond (.byte (hostReadOut s a))) := by
  simp only [hostAccess, locate_out s.cfg hv ha]

/-- R219: a written IN byte reads as its value. -/
theorem hostReadIn_of_read {v : Byte} (h : readByte s.inBuf a = some v) : hostReadIn s a = v := by
  rw [hostReadIn, h, Option.getD_some]

/-- R219: an unwritten IN byte reads as a draw. -/
theorem hostReadIn_of_unwritten (h : s.written a = false) : hostReadIn s a = Config.drawIn s.epoch a := by
  have hnone : readByte s.inBuf a = none := by simpa [State.written] using h
  rw [hostReadIn, hnone, Option.getD_none]

/-- R219: the store makes IN[a] the value written. -/
theorem readByte_storeIn_same (s : State) (a : Nat) (v : Byte) : readByte (s.storeIn a v).inBuf a = some v := by
  rw [State.storeIn_inBuf, readByte_writeByte, if_pos rfl]

/-- R219: the store leaves every other IN byte. -/
theorem readByte_storeIn_other {b : Nat} (h : b ≠ a) (s : State) (v : Byte) :
    readByte (s.storeIn a v).inBuf b = readByte s.inBuf b := by
  rw [State.storeIn_inBuf, readByte_writeByte, if_neg h]

/-- Settles O34: the state stored by the write, then the read in it. -/
theorem inByteWriteAndRead : Obligations.InByteWriteAndRead := by
  intro s a v hv ha
  have hread := readByte_storeIn_same s a v
  refine ⟨⟨s.storeIn a v, hostAccess_wr8_in hv ha v, hread, ?_, fun b hb => readByte_storeIn_other hb s v, rfl, ?_⟩,
    fun hw => ?_⟩
  · rw [State.written, hread, Option.isSome_some]
  · have hrd := hostAccess_rd8_in (s := s.storeIn a v) hv ha
    rwa [hostReadIn_of_read hread] at hrd
  · rw [hostAccess_rd8_in hv ha, hostReadIn_of_unwritten hw]
    rfl

/-- R220: while the results are specified an OUT byte below OUT_LEN reads as it was written. -/
theorem hostReadOut_of_lt {v : Byte} (hs : s.unspecified = false) (ha : a < s.o.toNat)
    (h : readByte s.outBuf a = some v) : hostReadOut s a = v := by
  rw [hostReadOut, hs, if_neg Bool.false_ne_true, if_pos ha, h, Option.getD_some]

/-- R83: an OUT byte at or beyond OUT_LEN reads as a draw. -/
theorem hostReadOut_of_le (ha : s.o.toNat ≤ a) : hostReadOut s a = Config.drawOut s.epoch a := by
  rw [hostReadOut, if_neg (Nat.not_lt.2 ha), ite_self]

/-- Settles O35: the invariant has every OUT byte below OUT_LEN written. -/
theorem outByteRead : Obligations.OutByteRead := by
  intro s a hinv ha hb hu ht
  have hrd := hostAccess_rd8_out hinv.cfgValid ha
  obtain ⟨-, -, -, -, -, hout⟩ := hinv.buffersOk
  refine ⟨fun hlt => ?_, fun hle => ?_⟩
  · obtain ⟨v, hv⟩ := Option.isSome_iff_exists.1 (hout a hlt)
    rw [hostReadOut_of_lt (unspecified_eq_false hb hu ht) hlt hv] at hrd
    exact ⟨v, hv, hrd⟩
  · rwa [hostReadOut_of_le hle] at hrd

end Sys2Proof.Machine
end

section
/-! PROOFS. Where an engine step reads an IN byte nobody has written, and the effect of the one fault entry. -/

namespace Sys2Proof.Machine

variable {s : State} {a d : Nat} {f : Fault}

/-- R46: WRITTEN = 0 is that the store lists no value. -/
theorem written_eq_false_iff : s.written a = false ↔ readByte s.inBuf a = none := by
  rw [State.written, Option.isSome_eq_false_iff, Option.isNone_iff_eq_none]

/-- R239: an engine read of an existing IN byte nobody has written. -/
theorem engineReadIn_of_unwritten (ha : a < s.cfg.inMax) (hw : s.written a = false) :
    engineReadIn s a = .error (.unwrittenInput a) :=
  engineReadIn_error.2 (.inl ⟨ha, written_eq_false_iff.1 hw, rfl⟩)

/-- R70, R82: an engine read of a written IN byte. -/
theorem exists_engineReadIn_of_written (ha : a < s.cfg.inMax) (hw : s.written a = true) :
    ∃ v, engineReadIn s a = .ok v := by
  obtain ⟨v, hv⟩ := Option.isSome_iff_exists.1 hw
  exact ⟨v, engineReadIn_ok.2 ⟨ha, hv⟩⟩

/-- R195, R239: DESER stops at the first of its three bytes that is unwritten. -/
theorem deser_of_unwritten (hd : d < 3) (ha : a + d < s.cfg.inMax) (hbefore : ∀ e, e < d → s.written (a + e) = true)
    (hw : s.written (a + d) = false) : deser s a = .error (.unwrittenInput (a + d)) := by
  have hok : ∀ e, e < d → ∃ v, engineReadIn s (a + e) = .ok v := fun e he =>
    exists_engineReadIn_of_written (by omega) (hbefore e he)
  have hstop := engineReadIn_of_unwritten ha hw
  match d with
  | 0 =>
    rw [Nat.add_zero] at hstop
    simp only [deser, hstop, Nat.add_zero]
  | 1 =>
    obtain ⟨v0, h0⟩ := hok 0 Nat.one_pos
    rw [Nat.add_zero] at h0
    simp only [deser, h0, hstop]
  | 2 =>
    obtain ⟨v0, h0⟩ := hok 0 Nat.two_pos
    obtain ⟨v1, h1⟩ := hok 1 Nat.one_lt_two
    rw [Nat.add_zero] at h0
    simp only [deser, h0, h1, hstop]

/-- R131: E_SYM stops where its read does. -/
theorem engineESym_of_read_error (h : engineReadIn s s.p.toNat = .error f) : engineESym s = .fault f := by
  rw [engineESym, h]

/-- R167, R240: D_REC with a record left stops where DESER does, before any error of the record. -/
theorem engineDRec_of_read_error (h : s.recordPos ≠ s.n.toNat) (hread : deser s s.recordPos = .error f) :
    engineDRec s = .fault f := by
  rw [engineDRec, if_neg (mt allRecordsDone_iff.1 h), hread]

/-- Settles O22. -/
theorem unwrittenInputFaults : Obligations.UnwrittenInputFaults := fun _ =>
  ⟨fun hp hw => engineESym_of_read_error (engineReadIn_of_unwritten hp hw),
    fun hleft _ hd hmax hbefore hw => engineDRec_of_read_error hleft (deser_of_unwritten hd hmax hbefore hw)⟩

/-- Settles O27: where IN was not written the flags take the error's own code. -/
theorem faultEntryEffect : Obligations.FaultEntryEffect := by
  intro s e pos info hclean
  refine ⟨?_, statusWord_raise hclean _ pos info, statusWord_raise hclean _ pos info, statusWord_raise hclean _ pos info,
    statusWord_raise hclean _ pos info⟩
  rw [State.raise, State.flagsAtEnd, errAtEnd_of_clean hclean]

/-- Settles O41: the turn is taken, and neither the idle engine nor a host with nothing left to do moves. -/
theorem idleEngineTakesNoStep : Obligations.IdleEngineTakesNoStep := fun s hp =>
  ⟨engineStep_of_idle hp, fun hturn => (step_of_engineTurn hturn).trans (engineStep_of_idle (s := s.popTurn) hp),
    fun hturn hnil => (step_of_hostTurn hturn).trans (hostStep_of_nil s.popTurn hnil)⟩

end Sys2Proof.Machine
end

section
/-! PROOFS. What a step of a run can stop at: under the invariant, and with DICT_CAP = 65535, every engine step answers a next
state or meets an unwritten IN byte below N, and no host step faults. -/

namespace Sys2Proof.Machine

variable {s : State}

/-- The outcome `q` of a step at `s` is a next state, or the fault UnwrittenInput of an unwritten IN byte below N. -/
def State.AnswersOrUnwritten (s : State) (q : Result) : Prop :=
  (∃ t, q = .next t) ∨ ∃ a, q = .fault (.unwrittenInput a) ∧ a < s.n.toNat ∧ s.written a = false

/-- R23, R60, R239: below N every IN offset exists, so that an engine read fails only on an unwritten byte. -/
theorem State.Inv.unwritten_of_read_error (hs : s.Inv) {a : Nat} {f : Fault} (ha : a < s.n.toNat)
    (h : engineReadIn s a = .error f) : s.AnswersOrUnwritten (.fault f) := by
  obtain ⟨-, -, -, -, hn, -⟩ := hs.flagsOk
  rcases engineReadIn_error.1 h with ⟨-, hread, rfl⟩ | ⟨habsent, -⟩
  · exact .inr ⟨a, rfl, ha, written_eq_false_iff.2 hread⟩
  · omega

/-- R25, R27, R28: 0 and the valid entries have a string. -/
theorem State.DictOk.exists_baseString (hs : s.DictOk) {ref : Index} (href : ref.toNat ≤ s.k.toNat) :
    ∃ base, baseString s ref = some base := by
  by_cases h0 : ref = 0
  · exact ⟨[], if_pos h0⟩
  · obtain ⟨base, -, hbase⟩ := exists_entryString hs ref.toNat (by bv_omega) href
    exact ⟨base, (baseString_of_ne_zero h0).trans (hbase _ le_rfl)⟩

theorem engineEBegin_answers (s : State) : ∃ t, engineEBegin s = .next t := by
  rcases engineEBegin_cases (s := s) with ⟨-, h⟩ | ⟨-, -, h⟩ | ⟨-, -, h⟩ <;> exact ⟨_, h⟩

theorem engineDBegin_answers (s : State) : ∃ t, engineDBegin s = .next t := by
  rcases engineDBegin_cases (s := s) with ⟨-, h⟩ | ⟨-, h⟩ <;> exact ⟨_, h⟩

/-- R131, R132: in E_SYM P is below N, and OUT and DICT have room for a record. -/
theorem engineESym_answersOrUnwritten (hs : s.Inv) (hp : s.phase = .eSym) : s.AnswersOrUnwritten (engineESym s) := by
  obtain ⟨-, hpn, -, hk⟩ := hs.matchOk hp
  cases hread : engineReadIn s s.p.toNat with
  | error f =>
    rw [engineESym_of_read_error hread]
    exact hs.unwritten_of_read_error hpn hread
  | ok sym =>
    by_cases hstop : s.p.toNat + 1 = s.n.toNat ∨ find s s.c sym = 0
    · exact .inl ⟨_, engineESym_of_emit hread hstop (hs.outRoom hp) hk⟩
    · obtain ⟨hlast, hfind⟩ := not_or.1 hstop
      exact .inl ⟨_, engineESym_of_extend hread hlast hfind⟩

/-- R163, R165: a record takes an error or is appended, where every reference up to R has a string. -/
theorem runRecord_answers {ref : Index} (hbase : ref.toNat ≤ s.r.toNat → ∃ base, baseString s ref = some base) (sym : Byte) :
    ∃ t, runRecord ref sym s = .next t := by
  rcases Nat.lt_or_ge s.r.toNat ref.toNat with hbad | href
  · exact ⟨_, runRecord_of_badReference hbad⟩
  · obtain ⟨base, hbase⟩ := hbase href
    rcases Nat.lt_or_ge s.cfg.outMax (s.o.toNat + (base ++ [sym]).length) with hover | hroom
    · exact ⟨_, runRecord_of_overflow href hbase hover⟩
    · exact ⟨_, runRecord_of_room href hbase hroom⟩

/-- R7, R164: with DICT_CAP = 65535 every 16-bit reference up to R is one up to K. -/
theorem State.Inv.exists_baseString (hs : s.Inv) (hcap : s.cfg.dictCap = 65535) (hp : s.phase = .dRec) {ref : Index}
    (href : ref.toNat ≤ s.r.toNat) : ∃ base, baseString s ref = some base := by
  obtain ⟨-, -, hk⟩ := hs.decodeOk hp
  exact hs.dictOk.exists_baseString (by have := ref.isLt; omega)

/-- R167, R195: in D_REC the bytes of a record that is left lie below N. -/
theorem engineDRec_answersOrUnwritten (hs : s.Inv) (hcap : s.cfg.dictCap = 65535) (hp : s.phase = .dRec) :
    s.AnswersOrUnwritten (engineDRec s) := by
  by_cases hdone : s.recordPos = s.n.toNat
  · exact .inl ⟨_, engineDRec_of_end hdone⟩
  · cases hread : deser s s.recordPos with
    | error f =>
      obtain ⟨d, hd, hfail⟩ := deser_error hread
      have hleft : s.recordPos + 3 ≤ s.n.toNat :=
        recordPos_add_three_le (hs.decodeOk hp) (Bool.eq_false_iff.2 (mt allRecordsDone_iff.1 hdone))
      rw [engineDRec_of_read_error hdone hread]
      exact hs.unwritten_of_read_error (by omega) hfail
    | ok b =>
      obtain ⟨b0, b1, b2⟩ := b
      rw [engineDRec_of_record hdone hread, exec_decodeRecord]
      exact .inl (runRecord_answers (hs.exists_baseString hcap hp) b2)

/-- R239, R240: the engine's step, phase by phase; the draws are no part of what it reads. -/
theorem engineStep_answersOrUnwritten (hs : s.Inv) (hcap : s.cfg.dictCap = 65535) :
    s.AnswersOrUnwritten (engineStep s) := by
  cases hp : s.phase with
  | idle => exact .inl ⟨s, engineStep_of_idle hp⟩
  | eBegin =>
    rw [engineStep_of_eBegin hp]
    exact .inl (engineEBegin_answers s.tick)
  | eSym =>
    rw [engineStep_of_eSym hp]
    exact engineESym_answersOrUnwritten hs.tick hp
  | dBegin =>
    rw [engineStep_of_dBegin hp]
    exact .inl (engineDBegin_answers s.tick)
  | dRec =>
    rw [engineStep_of_dRec hp]
    exact engineDRec_answersOrUnwritten hs.tick hcap hp

/-- R238: a host step is refused or answers a next state; the faults are the engine's. -/
theorem hostStep_no_fault {f : Fault} : hostStep s ≠ .fault f := by
  cases hh : s.host with
  | nil =>
    rw [hostStep_of_nil s hh]
    exact nofun
  | cons op rest =>
    cases op with
    | access x =>
      cases hx : x.isRead with
      | true =>
        rw [hostStep_of_read s hh hx]
        exact hostAccess_no_fault
      | false =>
        rw [hostStep_of_write s hh hx]
        exact hostAccess_no_fault
    | poll =>
      cases hb : s.busy with
      | true =>
        rw [hostStep_of_poll_busy s hh hb]
        exact nofun
      | false =>
        rw [hostStep_of_poll_idle s hh hb]
        exact nofun
    | writeRead addr =>
      by_cases hv : ∃ v, s.rdata = some (.byte v)
      · obtain ⟨v, hv⟩ := hv
        rw [hostStep_of_writeRead s hh hv]
        exact hostAccess_no_fault
      · rw [hostStep_of_writeRead_noByte s hh (not_exists.1 hv)]
        exact nofun

/-- R270: a turn of the reset input is taken off the list, and then the reset event happens. -/
theorem step_of_resetTurn (h : s.nextTurn = .reset) : step s = .next s.popTurn.resetEvent := by
  rw [step, h]

/-- R239: a step of the engine or of the reset input answers a next state or meets an unwritten IN byte below N. -/
theorem step_answersOrUnwritten (hs : s.Inv) (hcap : s.cfg.dictCap = 65535) (h : s.nextTurn ≠ .host) :
    s.AnswersOrUnwritten (step s) := by
  cases hturn : s.nextTurn with
  | host => exact absurd hturn h
  | engine =>
    rw [step_of_engineTurn hturn]
    exact engineStep_answersOrUnwritten hs.popTurn hcap
  | reset => exact .inl ⟨_, step_of_resetTurn hturn⟩

/-- Settles O46: the host's step does not fault, and the others answer a next state or meet an unwritten byte. -/
theorem onlyUnwrittenInputFaults : Obligations.OnlyUnwrittenInputFaults := by
  intro s hs hcap
  by_cases hturn : s.nextTurn = .host
  · refine ⟨fun f h => ?_, fun _ _ => hturn⟩
    rw [step_of_hostTurn hturn] at h
    exact absurd h hostStep_no_fault
  · rcases step_answersOrUnwritten hs hcap hturn with ⟨t, hnext⟩ | ⟨a, hfault, ha, hw⟩
    · rw [hnext]
      exact ⟨nofun, nofun⟩
    · rw [hfault]
      exact ⟨fun f h => ⟨a, (Host.Outcome.fault.inj h).symm, ha, hw⟩, nofun⟩

end Sys2Proof.Machine
end

section
/-! PROOFS. Termination: how many engine steps a running command has left at most. Every update of the running engine lowers that
number, so that a command whose input is written ends within it. -/

namespace Sys2Proof.Machine

/-- How many engine steps the command has left at most. ENCODE takes one step for each symbol from P on, and one more for each
record it has yet to begin; DECODE takes one step for each record that is left; then each takes its last one (R283). -/
def State.stepsLeft (s : State) : Nat :=
  match s.phase with
  | .idle => 0
  | .eBegin => 2 * (s.n.toNat - s.i.toNat) + 1
  | .eSym => 2 * (s.n.toNat - s.p.toNat)
  | .dBegin => s.n.toNat / 3 + 2
  | .dRec => s.n.toNat / 3 - s.r.toNat + 1

variable {s t : State}

theorem stepsLeft_of_idle (h : s.phase = .idle) : s.stepsLeft = 0 := by
  rw [State.stepsLeft, h]

theorem stepsLeft_of_eBegin (h : s.phase = .eBegin) : s.stepsLeft = 2 * (s.n.toNat - s.i.toNat) + 1 := by
  rw [State.stepsLeft, h]

theorem stepsLeft_of_eSym (h : s.phase = .eSym) : s.stepsLeft = 2 * (s.n.toNat - s.p.toNat) := by
  rw [State.stepsLeft, h]

theorem stepsLeft_of_dBegin (h : s.phase = .dBegin) : s.stepsLeft = s.n.toNat / 3 + 2 := by
  rw [State.stepsLeft, h]

theorem stepsLeft_of_dRec (h : s.phase = .dRec) : s.stepsLeft = s.n.toNat / 3 - s.r.toNat + 1 := by
  rw [State.stepsLeft, h]

/-- R283: the bound of a running ENCODE, wherever it is. -/
theorem stepsLeft_le_of_encode (h : s.phase = .eBegin ∨ s.phase = .eSym) : s.stepsLeft ≤ 2 * s.n.toNat + 1 := by
  rcases h with hp | hp
  · rw [stepsLeft_of_eBegin hp]
    omega
  · rw [stepsLeft_of_eSym hp]
    omega

/-- R283: the bound of a running DECODE, wherever it is. -/
theorem stepsLeft_le_of_decode (h : s.phase = .dBegin ∨ s.phase = .dRec) : s.stepsLeft ≤ s.n.toNat / 3 + 2 := by
  rcases h with hp | hp
  · rw [stepsLeft_of_dBegin hp]
  · rw [stepsLeft_of_dRec hp]
    omega

/-- R23: in E_SYM, P being below N, a symbol is left; every other phase has its last step left. -/
theorem State.Inv.stepsLeft_pos (hs : s.Inv) (hp : s.phase ≠ .idle) : 0 < s.stepsLeft := by
  cases hph : s.phase with
  | idle => exact absurd hph hp
  | eSym =>
    obtain ⟨-, hpn, -⟩ := hs.matchOk hph
    rw [stepsLeft_of_eSym hph]
    omega
  | eBegin | dBegin | dRec => simp [State.stepsLeft, hph]

/-- R23: in E_SYM P is below N, so that P + 1 does not wrap. -/
theorem State.Inv.toNat_p_succ (hs : s.Inv) (hp : s.phase = .eSym) : (s.p + 1).toNat = s.p.toNat + 1 := by
  obtain ⟨-, hpn, -⟩ := hs.matchOk hp
  bv_omega

/-- R283: every update of the running engine takes the command nearer to its end. -/
theorem EngineUpdate.stepsLeft_lt (h : EngineUpdate s t) (hs : s.Inv) : t.stepsLeft < s.stepsLeft := by
  cases h with
  | complete hp =>
    rw [stepsLeft_of_idle (s := s.complete) rfl]
    exact hs.stepsLeft_pos hp
  | raise e pos info hp =>
    rw [stepsLeft_of_idle (s := s.raise e pos info) rfl]
    exact hs.stepsLeft_pos hp
  | beginRecord hp hi hk =>
    obtain ⟨-, hin, -⟩ := (EngineUpdate.beginRecord hp hi hk).matchOk hs rfl
    rw [stepsLeft_of_eBegin hp, stepsLeft_of_eSym (s := s.beginRecord) rfl]
    simp only [State.beginRecord_n, State.beginRecord_p]
    omega
  | extendMatch sym hp hl =>
    obtain ⟨-, hpn, -⟩ := hs.matchOk hp
    rw [stepsLeft_of_eSym hp, stepsLeft_of_eSym (s := s.extendMatch _) hp, State.extendMatch_n, State.extendMatch_p,
      hs.toNat_p_succ hp]
    omega
  | emit sym hp =>
    obtain ⟨-, hpn, -⟩ := hs.matchOk hp
    rw [stepsLeft_of_eSym hp, stepsLeft_of_eBegin (s := (s.emitted s.c sym).nextRecord) rfl, State.nextRecord_n,
      State.nextRecord_i, State.emitted_n, State.emitted_p, hs.toNat_p_succ hp]
    omega
  | enterRecords hp =>
    rw [stepsLeft_of_dBegin hp, stepsLeft_of_dRec (s := s.enterRecords) rfl, State.enterRecords_n]
    omega
  | append ref sym base hp hd href ho =>
    have hleft := recordPos_add_three_le (hs.decodeOk hp) hd
    have hr := (recordEffect_appended hs sym hp hd href ho).r
    rw [stepsLeft_of_dRec hp, stepsLeft_of_dRec (s := s.appended ref sym (base ++ [sym])) hp, State.appended_n, hr]
    omega

/-- R33, R34: the engine becomes idle by ending its command. -/
theorem EngineUpdate.ended_of_idle (h : EngineUpdate s t) (ht : t.phase = .idle) : t.busy = false ∧ t.done = true := by
  cases h with
  | complete | raise => exact ⟨rfl, rfl⟩
  | beginRecord | emit | enterRecords => simp at ht
  | extendMatch sym hp => exact absurd (hp.symm.trans ht) nofun
  | append ref sym base hp => exact absurd (hp.symm.trans ht) nofun

/-- IN[0..N) is written, so that the command meets no byte it cannot read (R239). -/
abbrev State.InputWritten (s : State) : Prop := ∀ a, a < s.n.toNat → s.written a = true

/-- R62: IN and N are no engine step's to change. -/
theorem EngineUpdate.inputWritten (h : EngineUpdate s t) (hw : s.InputWritten) : t.InputWritten := by
  obtain ⟨-, -, hn, -, -, -, -, -, hin⟩ := h.keeps
  unfold State.InputWritten State.written
  rw [hn, hin]
  exact hw

/-- R239: a running engine whose input is written takes its step. -/
theorem exists_engineUpdate_of_inputWritten (hs : s.Inv) (hcap : s.cfg.dictCap = 65535) (hp : s.phase ≠ .idle)
    (hw : s.InputWritten) : ∃ t, engineStep s = .next t ∧ EngineUpdate s.tick t := by
  rcases engineStep_answersOrUnwritten hs hcap with ⟨t, ht⟩ | ⟨a, -, ha, hun⟩
  · exact ⟨t, ht, (engineUpdate_of_engineStep ht).resolve_left fun hidle => hp hidle.1⟩
  · exact absurd ((hw a ha).symm.trans hun) nofun

/-- R283: a running command whose input is written ends within the steps it has left, by induction on a bound of them. -/
theorem exists_busyRun_to_end {k : Nat} (hk : s.stepsLeft ≤ k) (hs : s.Inv) (hcap : s.cfg.dictCap = 65535)
    (hp : s.phase ≠ .idle) (hw : s.InputWritten) :
    ∃ m t, m ≤ k ∧ BusyRun m s t ∧ t.phase = .idle ∧ t.busy = false ∧ t.done = true := by
  induction k generalizing s with
  | zero => exact absurd (hs.stepsLeft_pos hp) (Nat.not_lt.2 hk)
  | succ k ih =>
    obtain ⟨t, hstep, hu⟩ := exists_engineUpdate_of_inputWritten hs hcap hp hw
    have hbusy := hs.busy hp
    by_cases hidle : t.phase = .idle
    · exact ⟨1, t, Nat.le_add_left 1 k, .step hbusy hstep (.refl t), hidle, hu.ended_of_idle hidle⟩
    · have hlt : t.stepsLeft < s.stepsLeft := hu.stepsLeft_lt hs.tick
      obtain ⟨m, u, hm, hrun, hend⟩ := ih (Nat.le_of_lt_succ (hlt.trans_le hk)) (hu.inv hs.tick)
        ((engineStep_cfg hstep).symm ▸ hcap) hidle (hu.inputWritten hw)
      exact ⟨m + 1, u, Nat.succ_le_succ hm, .step hbusy hstep hrun, hend⟩

/-- Settles O48: the steps left are within the bound of either command. -/
theorem everyCommandEnds : Obligations.EveryCommandEnds := by
  intro s hs hcap hbusy hw
  obtain ⟨hbusyIff, -⟩ := hs.flagsOk
  obtain ⟨m, t, hm, hrun, hidle, hnotBusy, hdone⟩ := exists_busyRun_to_end le_rfl hs hcap (hbusyIff.1 hbusy) hw
  exact ⟨m, t, hrun.engineRun_eq, hidle, hnotBusy, hdone, fun h => hm.trans (stepsLeft_le_of_encode h),
    fun h => hm.trans (stepsLeft_le_of_decode h)⟩

end Sys2Proof.Machine
end
